-- ==== Sys2Proof/Word.lean ====
section
/-!
DEFINITION. The word types of CUSI-FC (00_scope.md R14, R17, R18): bytes, the 16-bit checksum, the
32-bit register word, and byte sequences.
-/
namespace Sys2Proof

/-- A buffer byte, or one byte of a frame (R14). -/
abbrev Byte := BitVec 8

/-- A 16-bit value: the checksum and the trailer (R14). -/
abbrev Half := BitVec 16

/-- A 24-bit value: a three-byte marker as RX_HEADER and RX_FOOTER hold it (R48). -/
abbrev Marker := BitVec 24

/-- A 32-bit CSR value (R14). -/
abbrev Word := BitVec 32

/-- A byte sequence; element 0 is first on the wire (R18, R91). -/
abbrev Bytes := List Byte

end Sys2Proof
end

