-- ==== Sys2Proof/Interface.lean ====
section
/-!
DEFINITION. What the outside world hands to the system: one bus transaction (R141), one command frame
(R120), a host operation asked for by the operator (44_transfer_procedures.md), and the events that
the three agents of R15 and the platform's reset input (R340) may take, one at a time (R326).
-/
namespace Sys2Proof

/-- The direction of a bus transaction (R141). -/
inductive Dir where
  | R
  | W
  deriving DecidableEq, Repr, Inhabited

/-- One bus transaction, the tuple `(dir, size, off, data)` of R141: `size` counts bytes, `off` is the
block-relative address, and `data` is the value written (ignored for a read). -/
structure Access where
  dir  : Dir
  size : Nat
  off  : Nat
  data : Word
  deriving DecidableEq, Repr, Inhabited

/-- The two encodings of 30_encoding.md: a bus transaction (R110, R112), or the bytes of a command frame
`[opcode][payload][crc_hi][crc_lo]` that the host is to exchange (R120). -/
inductive Packet where
  | bus   (a : Access)
  | frame (bytes : Bytes)
  deriving DecidableEq, Repr, Inhabited

/-- What a Download does with the body it gets (R269): show it, or write it to a destination that accepts
or refuses the write (local file access is the host's, R9). -/
inductive Dest where
  | display
  | file (writable : Bool)
  deriving DecidableEq, Repr, Inhabited

/-- Upload's transfer session (R277), with the chunk now being sent, the source bytes not yet sent and the
total source size, which its progress reports name (R274). -/
structure Session where
  remotePath     : Bytes
  firstChunkSent : Bool
  bytesSent      : Nat
  chunk          : Bytes
  rest           : Bytes
  total          : Nat
  deriving DecidableEq, Repr, Inhabited

/-- Which procedure an exchange belongs to: it decides what its result means (R267-R276). `raw` is an
exchange of an opcode that no procedure names (R132), and `boot` is the sequence of R346 and R347, which exchanges
nothing. -/
inductive TaskKind where
  | listDir
  | download (dest : Dest)
  | upload (session : Session)
  | remove
  | raw
  | boot
  deriving DecidableEq, Repr, Inhabited

/-- An operation the host is asked to perform: the four procedures with the user's own operands (R267, R269,
R270, R276), one exchange of a frame whose path has already passed the sandbox, or the accesses a host makes before its
first exchange (R346, R347; `none` leaves a register alone). A `none` source is one that cannot be opened or read (R270
step 3). -/
inductive HostOp where
  | listDir  (path : Option Bytes)
  | download (path : Bytes) (dest : Dest)
  | upload   (source : Option Bytes) (remotePath : Bytes)
  | remove   (path : Bytes)
  | send     (kind : TaskKind) (opcode : Byte) (payload : Bytes)
  | boot     (uartDiv engTimeout : Option Word) (ie : Bool)
  deriving DecidableEq, Repr, Inhabited

/-- One step of one agent (R15), or of the platform. -/
inductive Event where
  /-- The host (or another bus master, R333) issues a transaction, or takes up a command frame. -/
  | transaction (p : Packet)
  /-- A bus master issues an access at a host address, its `off` not block-relative but BASE plus that (R80). One that
  starts outside the block's range is the platform's (R82, assumption 28). -/
  | platformAccess (a : Access)
  /-- The operator asks the host for an operation (R143). -/
  | request (op : HostOp)
  /-- The host's running procedure issues its next access (R265, R281). -/
  | hostTurn
  /-- The host program stops (R279). -/
  | hostStop
  /-- The engine's transmit step (R222). -/
  | engineTx
  /-- The line delivers one byte (R227). -/
  | lineByte (b : Byte)
  /-- The line delivers ten bits, bit 0 first: a character (R223), or one with a framing error (R233). -/
  | lineChar (c : BitVec 10)
  /-- The line has been idle for the timeout (R228). -/
  | lineIdle
  /-- The platform asserts reset (R340). -/
  | reset
  deriving DecidableEq, Repr, Inhabited

end Sys2Proof
end

