-- ==== Sys2Proof/Config.lean ====
section
/-!
DEFINITION. The implementation parameters of 00_scope.md R13 and the free values: what the spec leaves open and
no proof may know. A `Config` stands in every `State` and no step changes it (R39, R40, R341).
-/
namespace Sys2Proof

/-- The implementation parameters (R13). The `Device` parameter is not here: it is the line's events (R16). -/
structure Config where
  /-- BASE: the host address of block offset 0. -/
  base          : Nat
  /-- TXBUF_SIZE, 300..4096. -/
  txbufSize     : Nat
  /-- RXBUF_SIZE, 16..65536. -/
  rxbufSize     : Nat
  /-- ENGINE_PRESENT. -/
  enginePresent : Bool
  /-- F_CLK_HZ, a positive number of hertz. -/
  fClkHz        : Nat
  deriving DecidableEq, Repr

/-- The ranges R13 gives the parameters. -/
abbrev Config.Legal (c : Config) : Prop :=
  300 ≤ c.txbufSize ∧ c.txbufSize ≤ 4096 ∧ 16 ≤ c.rxbufSize ∧ c.rxbufSize ≤ 65536 ∧ 0 < c.fClkHz

/-- The platform's BASE, for which R13 gives no default. Free value, assumption 3. -/
opaque Config.platformBase : Nat

/-- One less than the platform's F_CLK_HZ, for which R13 gives no default. Free value, assumption 3. -/
opaque Config.platformClock : Nat

/-- The parameters of `State.reset`: the defaults of R13, and free values where it gives none. -/
def Config.platform : Config where
  base := Config.platformBase
  txbufSize := 512
  rxbufSize := 4096
  enginePresent := true
  fClkHz := Config.platformClock + 1

/-- What a buffer byte holds until it is first written after a reset: "one fixed but unknown value"
(93_implementation_defined.md U1), by the number of resets so far and the byte's address. Free value, assumption 4. -/
opaque Config.freeByte : Nat → Nat → Byte

/-- What a read returns where the spec says "unspecified" (U2: "a fresh draw per read"), by the number of draws so
far. Free value, assumption 5. -/
opaque Config.freeWord : Nat → Word

/-- What the agents do once the given inputs are used up: "any enabled step of any agent may be taken next" (R15),
by the number of draws so far. Free value, assumption 1. -/
opaque Config.freeEvent : Nat → Event

end Sys2Proof
end

