-- ==== Sys2Proof/Machine/Bytes.lean ====
section
/-!
DEFINITION. Byte order and byte-sequence helpers: the two halves of a checksum (R19), the big-endian assembly of wire
fields (R126), the little-endian lanes of the host bus (R85), splitting and searching byte sequences (R268, R273), and
the test for valid text (R269).
-/
namespace Sys2Proof.Machine

/-- `hi8(v) = v[15:8]` (R19). -/
def hi8 (v : Half) : Byte := v.extractLsb' 8 8

/-- `lo8(v) = v[7:0]` (R19). -/
def lo8 (v : Half) : Byte := v.extractLsb' 0 8

/-- Two wire bytes as one value, the first most significant (R126). -/
def be16 (first second : Byte) : Half := first ++ second

/-- Three wire bytes as one value, the first most significant (R126). -/
def be24 (first second third : Byte) : Marker := first ++ second ++ third

/-- Four buffer bytes as a bus word: `b0` at the lowest address in bits [7:0] (R85). -/
def le32 (b0 b1 b2 b3 : Byte) : Word := b3 ++ b2 ++ b1 ++ b0

/-- Byte lane `k` of a bus word (R85): bits [8k+7 : 8k]. -/
def lane (v : Word) (k : Nat) : Byte := v.extractLsb' (8 * k) 8

/-- The segments of a byte sequence between the bytes equal to `sep`; there is always at least one (R263, R268). -/
def splitAt (sep : Byte) : Bytes → List Bytes
  | [] => [[]]
  | b :: rest =>
    if b = sep then [] :: splitAt sep rest
    else match splitAt sep rest with
      | [] => [[b]]
      | seg :: segs => (b :: seg) :: segs

/-- The segments joined again with `sep` between them (R263). -/
def joinWith (sep : Byte) : List Bytes → Bytes
  | [] => []
  | [seg] => seg
  | seg :: segs => seg ++ sep :: joinWith sep segs

/-- Does `body` contain `sub` as a run of consecutive bytes, anywhere (R273, D52)? -/
def containsSeq (sub : Bytes) : Bytes → Bool
  | [] => sub.isEmpty
  | b :: rest => sub.isPrefixOf (b :: rest) || containsSeq sub rest

/-- Where a UTF-8 reader stands: how many continuation bytes are still due, and the range the next one must lie in. -/
structure TextState where
  due : Nat
  lo  : Nat
  hi  : Nat
  deriving DecidableEq, Repr

/-- One byte of UTF-8 (D53, PRESUMED: the encoding's table of well-formed sequences is general knowledge, assumption 17).
`none` once the text is not valid. -/
def textStep (t : TextState) (b : Byte) : Option TextState :=
  let n := b.toNat
  if t.due = 0 then
    if n ≤ 0x7F then some ⟨0, 0, 0⟩
    else if 0xC2 ≤ n ∧ n ≤ 0xDF then some ⟨1, 0x80, 0xBF⟩
    else if n = 0xE0 then some ⟨2, 0xA0, 0xBF⟩
    else if n = 0xED then some ⟨2, 0x80, 0x9F⟩
    else if 0xE1 ≤ n ∧ n ≤ 0xEF then some ⟨2, 0x80, 0xBF⟩
    else if n = 0xF0 then some ⟨3, 0x90, 0xBF⟩
    else if 0xF1 ≤ n ∧ n ≤ 0xF3 then some ⟨3, 0x80, 0xBF⟩
    else if n = 0xF4 then some ⟨3, 0x80, 0x8F⟩
    else none
  else if t.lo ≤ n ∧ n ≤ t.hi then some ⟨t.due - 1, 0x80, 0xBF⟩
  else none

/-- Reads on from `t`: is the rest of the text valid, and does it end between two characters? -/
def textFrom (t : TextState) : Bytes → Bool
  | [] => t.due = 0
  | b :: rest =>
    match textStep t b with
    | some t' => textFrom t' rest
    | none => false

/-- "Valid text" as R269 reads it: valid UTF-8. -/
def validText (body : Bytes) : Bool := textFrom ⟨0, 0, 0⟩ body

end Sys2Proof.Machine
end

