-- ==== Sys2Proof/Machine/Crc.lean ====
section
/-!
DEFINITION. The checksum function (40_checksum.md R150, R151), the wire frames that carry it (R169, R200), and the UART
character that carries a byte (R223) with the divisor its link starts with (R50).
-/
namespace Sys2Proof.Machine

/-- CRC_POLY (R12). -/
def crcPoly : Half := 0xA001

/-- CRC_INIT_VALUE (R12). -/
def crcInitValue : Half := 0xFFFF

/-- One of the eight iterations of R150: a right shift that XORs in the polynomial when the bit shifted out was 1. -/
def crcShift (c : Half) : Half :=
  if c.getLsbD 0 then (c >>> 1) ^^^ crcPoly else c >>> 1

/-- `crc_step(c, b)` (R150). -/
def crcStep (c : Half) (b : Byte) : Half := crcShift^[8] (c ^^^ b.setWidth 16)

/-- `crc_step` folded over a sequence from any starting value (R155). -/
def crcFrom (c : Half) (s : Bytes) : Half := s.foldl crcStep c

/-- `crc16(s)` (R151). -/
def crc16 (s : Bytes) : Half := crcFrom crcInitValue s

/-- The two checksum bytes as a frame carries them: high byte first (R90, R121). -/
def crcBytes (c : Half) : Bytes := [hi8 c, lo8 c]

/-- `Encode(op, p)` (R169): the whole command frame. -/
def encodeFrame (op : Byte) (payload : Bytes) : Bytes :=
  op :: payload ++ crcBytes (crc16 (op :: payload))

/-- HEADER (R12). -/
def header : Bytes := [0xAA, 0xAB, 0xAA]

/-- FOOTER (R12). -/
def footer : Bytes := [0xAB, 0xCC, 0xAB]

/-- `Wrap(status, reserved, body, trailer)` (R200): a device's response frame, its trailer two bytes `t0`, `t1`. -/
def wrap (status reserved : Byte) (body : Bytes) (t0 t1 : Byte) : Bytes :=
  header ++ [status, reserved] ++ body ++ [t0, t1] ++ footer

/-- One UART character (R223), bit 0 first on the line: start bit low, eight data bits least-significant first, stop
bit high. -/
def uartChar (b : Byte) : BitVec 10 := 1#1 ++ b ++ 0#1

/-- The byte a received character carries; `none` for a framing error, a low stop bit (R233), and for ten bits that
do not begin with a start bit. -/
def uartByte (c : BitVec 10) : Option Byte :=
  if c.getLsbD 9 && !c.getLsbD 0 then some (c.extractLsb' 1 8) else none

/-- UART_DIV after reset (R50): `max(1, round(F_CLK_HZ / 115200))`, halves rounded up (DEDUCED, assumption 6), and the
largest divisor where the register cannot hold it (DESIGN CHOICE, assumption 6). -/
def resetDivisor (c : Config) : Word :=
  BitVec.ofNat 32 (min 0xFFFFFFFF (max 1 ((2 * c.fClkHz + 115200) / 230400)))

end Sys2Proof.Machine
end

