-- ==== Sys2Proof/Machine/State.lean ====
section
/-!
DEFINITION. The state of the whole system as plain data: the block's registers, hidden engine state and buffers
(10_state.md), the host agent that runs the procedures (44_transfer_procedures.md), and the environment. Then the
reasons a step can stop, and the state right after reset (70_reset_and_hazards.md R341).
-/
namespace Sys2Proof.Machine

/-- STATUS.ERR: the twelve codes of R301; 0xC-0xF are never written (R302). -/
inductive ErrCode where
  | none
  | malformedLength
  | malformedHeader
  | malformedFooter
  | malformedShort
  | deviceError
  | crcMismatch
  | txLength
  | rxLength
  | rxOverflow
  | noResponse
  | illegalCmd
  deriving DecidableEq, Repr

/-- ENG_STATE (R49): 5-7 are never produced. -/
inductive EngState where
  | idle
  | frameSent
  | awaitingResponse
  | decoded
  | failed
  deriving DecidableEq, Repr

/-- The engine's idle timer (R52). The model has no clock (R370): it holds whether the timer runs, not how far. -/
inductive IdleTimer where
  | stopped
  | running
  deriving DecidableEq, Repr

/-- The windows of the address space (R80). -/
inductive Window where
  | csr
  | tx (index : Nat)
  | rx (index : Nat)
  | outside
  deriving DecidableEq, Repr

/-- The buffer bytes written since reset, by block-relative address: addresses strictly rising. An unlisted address
has not been written since reset (R51, U1). -/
abbrev Memory := List Host.Cell

/-- The block: every CSR of R32 that holds a value, the hidden state of R52, the buffers of R51, and the UART transmit
line of R341. CTRL.CMD, CRC_DATA and unused offsets read as 0 and hold nothing (R33, R34, R42); CAPS and the SIZE
registers read as the `Config` (R39, R40). -/
structure Block where
  /-- CTRL.IE (R34). -/
  ie          : Bool
  /-- STATUS.BUSY (R36). -/
  busy        : Bool
  /-- STATUS.DONE (R36). -/
  done        : Bool
  /-- STATUS.CMD_OVERRUN (R36). -/
  cmdOverrun  : Bool
  /-- STATUS.ERR (R36). -/
  err         : ErrCode
  /-- STATUS.RX_STATUS (R36). -/
  rxStatus    : Byte
  /-- STATUS.RX_RESERVED (R36). -/
  rxReserved  : Byte
  /-- CRC (R41). -/
  crc         : Half
  /-- TX_LEN (R43). -/
  txLen       : Word
  /-- TX_FRAME_LEN (R44). -/
  txFrameLen  : Word
  /-- RX_LEN (R45). -/
  rxLen       : Word
  /-- RX_BODY_LEN (R46). -/
  rxBodyLen   : Word
  /-- RX_TRAILER (R47). -/
  rxTrailer   : Half
  /-- RX_HEADER (R48). -/
  rxHeader    : Marker
  /-- RX_FOOTER (R48). -/
  rxFooter    : Marker
  /-- ENG_STATE (R49). -/
  engState    : EngState
  /-- ENG_TIMEOUT (R50). -/
  engTimeout  : Word
  /-- UART_DIV (R50). -/
  uartDiv     : Word
  /-- Hidden: received bytes are being stored (R52). -/
  capturing   : Bool
  /-- Hidden: index of the next TXBUF byte to send (R52). -/
  txi         : Nat
  /-- Hidden: number of received bytes stored so far (R52). -/
  rxn         : Nat
  /-- Hidden: a byte arrived when RXBUF was full (R52). -/
  ovf         : Bool
  /-- Hidden: the idle timer (R52). -/
  idleTimer   : IdleTimer
  /-- The level of the UART transmit line; it idles high (R223, R341). -/
  txLine      : Bool
  /-- TXBUF and RXBUF (R51). -/
  mem         : Memory
  /-- The model's own: how many resets there have been since the first, which tells the free contents of the buffers
  after one reset from those after another (U1, assumption 4). -/
  epoch       : Nat
  deriving DecidableEq, Repr

/-- Reasons a step could stop with a fault. No step of this model does: the one fault the spec names is an error of the
host access that took it, after which the block goes on (assumption 2). -/
inductive Fault where
  /-- Raised by `State.busError`: the bus answers the host's access at `addr` with an error response and nothing else
  happens (R310). It is recorded as the access's response. Safe: no block state changes, as the spec says. -/
  | busError (addr : Nat)
  deriving DecidableEq, Repr

/-- Reasons a step can be refused. -/
inductive Refusal where
  /-- Raised by an arm of `exec` whose instruction has no meaning yet; no arm is one. Safe. -/
  | notModelled (mnemonic : String)
  /-- Raised by `runPacket` for a command frame of fewer than three bytes: such bytes are no frame (R120). Safe. -/
  | notACommandFrame
  deriving DecidableEq, Repr

/-- The response that ends a bus access (D4): OK, data, or an error response, which is the fault of R310. -/
inductive Response where
  | none
  | ok
  | data (value : Word)
  | fault (reason : Fault)
  deriving DecidableEq, Repr

/-- What the host does once a list of accesses is issued (R265, R281, R346). -/
inductive AfterWrites where
  | pollBusy
  | awaitIrq
  | checkBuild
  | readStatus
  | finished
  deriving DecidableEq, Repr

/-- Where a running procedure stands: the phases of Exchange (R265; the four from `checkBuild` on are R281's, for a block
without the engine), and the end of a boot sequence. -/
inductive Phase where
  | issue (todo : List Access) (next : AfterWrites)
  | pollBusy
  | awaitIrq
  | readStatus
  | readBodyLen (deviceError : Bool)
  | readBody (deviceError : Bool) (left : Nat) (got : Bytes)
  | checkBuild
  | readFrameLen
  | readFrame (len : Nat) (index : Nat)
  | collect (got : Bytes)
  | finished
  deriving DecidableEq, Repr

/-- The host's running procedure: what its exchange is for, and where the exchange stands. -/
structure Task where
  kind  : TaskKind
  phase : Phase
  deriving DecidableEq, Repr

/-- How an operation can fail (R266, R269, R270, R273, R276, R306). -/
inductive HostError where
  | absolutePathRejected
  | pathEscape
  | pathTooLong
  | localIOError
  | malformedFrame
  | deviceError (body : Bytes)
  | noResponse
  | exchangeFailed (code : BitVec 4)
  | unexpectedResult (body : Bytes)
  | notText
  /-- A read of the procedure got a bus error (assumption 15). -/
  | busFault (addr : Nat)
  deriving DecidableEq, Repr

/-- What an exchange ends with (R265). -/
inductive Exchanged where
  | ok (body : Bytes)
  | error (e : HostError)
  deriving DecidableEq, Repr

/-- How an operation ended. `uploadFailed` also gives the bytes acknowledged before the failure (R274). -/
inductive HostResult where
  | listing (entries : List Bytes)
  | displayed (text : Bytes)
  | saved (content : Bytes)
  | uploaded (bytesSent : Nat)
  | removed
  | booted
  | received (body : Bytes)
  | failed (e : HostError)
  | uploadFailed (e : HostError) (bytesSent : Nat)
  deriving DecidableEq, Repr

/-- The host agent: which of R265's two ways its program waits for an exchange (`useIrq`, fixed for a program), the
block's response to the last access, of any bus master, that it answered (assumption 28), the running
procedure, the operations waiting for it to end (R278), how the last one ended, and the progress reports of the last Upload
(R274). -/
structure HostAgent where
  useIrq   : Bool
  response : Response
  task     : Option Task
  waiting  : List HostOp
  result   : Option HostResult
  progress : List (Nat × Nat)
  deriving DecidableEq, Repr

/-- The environment: the events still to come (assumption 1), the bytes sent to the device so far, and how many free
values have been drawn (the model's own counter). -/
structure Environment where
  inputs  : List Event
  lineOut : Bytes
  draws   : Nat
  deriving DecidableEq, Repr

/-- The whole system. -/
structure State where
  cfg  : Config
  blk  : Block
  host : HostAgent
  env  : Environment
  deriving DecidableEq, Repr

/-- The block after reset (R341). The buffers are unspecified, so nothing is listed. -/
def Block.reset (c : Config) (epoch : Nat) : Block where
  ie := false
  busy := false
  done := false
  cmdOverrun := false
  err := .none
  rxStatus := 0
  rxReserved := 0
  crc := 0xFFFF
  txLen := 0
  txFrameLen := 0
  rxLen := 0
  rxBodyLen := 0
  rxTrailer := 0
  rxHeader := 0
  rxFooter := 0
  engState := .idle
  engTimeout := 11520
  uartDiv := resetDivisor c
  capturing := false
  txi := 0
  rxn := 0
  ovf := false
  idleTimer := .stopped
  txLine := true
  mem := []
  epoch := epoch

/-- The host agent before it has done anything (assumption 7). -/
def HostAgent.start : HostAgent where
  useIrq := false
  response := .none
  task := none
  waiting := []
  result := none
  progress := []

/-- The environment with no input given (assumptions 1 and 7). -/
def Environment.start : Environment where
  inputs := []
  lineOut := []
  draws := 0

/-- The system right after reset with the parameters `c` (R340). -/
def State.resetWith (c : Config) : State where
  cfg := c
  blk := Block.reset c 0
  host := HostAgent.start
  env := Environment.start

/-- The machine right after reset (R340, R341), with the parameters' default values (R13). -/
def State.reset : State := State.resetWith Config.platform

end Sys2Proof.Machine
end

