-- ==== Sys2Proof/Machine/Flags.lean ====
section
/-!
DEFINITION. The flags (10_state.md R36, R53): the codes of ERR and ENG_STATE, the words CTRL, STATUS and CAPS read as,
acceptance and completion of a command, and the interrupt output.
-/
namespace Sys2Proof.Machine

/-- The value STATUS[7:4] holds for a code (R301). -/
def ErrCode.code : ErrCode → BitVec 4
  | .none => 0x0
  | .malformedLength => 0x1
  | .malformedHeader => 0x2
  | .malformedFooter => 0x3
  | .malformedShort => 0x4
  | .deviceError => 0x5
  | .crcMismatch => 0x6
  | .txLength => 0x7
  | .rxLength => 0x8
  | .rxOverflow => 0x9
  | .noResponse => 0xA
  | .illegalCmd => 0xB

/-- The value ENG_STATE[2:0] holds (R49). -/
def EngState.code : EngState → BitVec 3
  | .idle => 0
  | .frameSent => 1
  | .awaitingResponse => 2
  | .decoded => 3
  | .failed => 4

/-- CTRL as read (R34): IE in bit 8, everything else 0. -/
def Block.ctrlWord (b : Block) : Word := 0#23 ++ BitVec.ofBool b.ie ++ 0#8

/-- STATUS's layout (R36), its three result fields given. -/
def Block.statusWith (b : Block) (err : BitVec 4) (rxStatus rxReserved : Byte) : Word :=
  0#8 ++ rxReserved ++ rxStatus ++ err ++ 0#1 ++ BitVec.ofBool b.cmdOverrun ++ BitVec.ofBool b.done
    ++ BitVec.ofBool b.busy

/-- STATUS as read while no exchange runs (R36). -/
def Block.statusWord (b : Block) : Word := b.statusWith b.err.code b.rxStatus b.rxReserved

/-- STATUS as read while BUSY = 1 (R38): BUSY, DONE and CMD_OVERRUN as they are, and ERR, RX_STATUS and RX_RESERVED
taken from the free value `d`. -/
def Block.statusWhileBusy (b : Block) (d : Word) : Word :=
  b.statusWith (d.extractLsb' 4 4) (d.extractLsb' 8 8) (d.extractLsb' 16 8)

/-- CAPS (R39). -/
def capsWord (c : Config) : Word := 0#31 ++ BitVec.ofBool c.enginePresent

/-- Acceptance of a command clears DONE before the command runs (R37). -/
def Block.accept (b : Block) : Block := { b with done := false }

/-- `complete(code)` (R300): ERR, then DONE, in one step. -/
def Block.complete (code : ErrCode) (b : Block) : Block := { b with err := code, done := true }

/-- A host write of `v` to STATUS (R37): write-one-to-clear on DONE and CMD_OVERRUN, every other bit ignored. -/
def Block.writeStatus (v : Word) (b : Block) : Block :=
  { b with done := b.done && !v.getLsbD 1, cmdOverrun := b.cmdOverrun && !v.getLsbD 2 }

/-- The interrupt output (R320): `irq = x[CTRL].IE & x[STATUS].DONE`. -/
def State.irq (s : State) : Bool := s.blk.ie && s.blk.done

end Sys2Proof.Machine
end

