-- ==== Sys2Proof/Machine/Ops.lean ====
section
/-!
DEFINITION. The named operations over memory, registers and the host's side of the bus: buffer bytes (R51, R84), the
windows (R80), free values, the responses of the bus, and the ONE way an access fails, `State.busError` (R310). The
block takes no traps and has no return from one (R327, R328).
-/
namespace Sys2Proof.Machine

/-- The byte written at address `a` since reset, if any. -/
def Memory.find : Memory → Nat → Option Byte
  | [], _ => none
  | (k, v) :: rest, a => if k = a then some v else Memory.find rest a

/-- `a <- v`, keeping the addresses strictly rising. -/
def Memory.put : Memory → Nat → Byte → Memory
  | [], a, v => [(a, v)]
  | (k, w) :: rest, a, v =>
    if a < k then (a, v) :: (k, w) :: rest
    else if a = k then (a, v) :: rest
    else (k, w) :: Memory.put rest a v

/-- The canonical form: addresses strictly rising. -/
abbrev Memory.wf (m : Memory) : Prop := m.Pairwise fun x y => x.1 < y.1

/-- The byte at block-relative address `a`. What an address not written since reset reads as: the free value of U1. -/
def Block.byte (b : Block) (a : Nat) : Byte := (Memory.find b.mem a).getD (Config.freeByte b.epoch a)

/-- One byte written at block-relative address `a`. -/
def Block.poke (a : Nat) (v : Byte) (b : Block) : Block := { b with mem := Memory.put b.mem a v }

/-- First address of the TXBUF window (R80). -/
def txBase : Nat := 0x01000

/-- First address of the RXBUF window (R80). -/
def rxBase : Nat := 0x10000

/-- The window an address lies in (R80), with the buffer index it names. -/
def windowOf (a : Nat) : Window :=
  if a ≤ 0x000FF then .csr
  else if txBase ≤ a ∧ a ≤ 0x01FFF then .tx (a - txBase)
  else if rxBase ≤ a ∧ a ≤ 0x1FFFF then .rx (a - rxBase)
  else .outside

/-- The bytes of `v` written from address `a` on: one byte, or four little-endian lanes (R84, R85). -/
def Block.store (a n : Nat) (v : Word) (b : Block) : Block :=
  if n = 1 then b.poke a (lane v 0)
  else (((b.poke a (lane v 0)).poke (a + 1) (lane v 1)).poke (a + 2) (lane v 2)).poke (a + 3) (lane v 3)

/-- The bytes from address `a` on as a bus value: one byte, or four little-endian lanes (R84, R85). -/
def Block.load (b : Block) (a n : Nat) : Word :=
  if n = 1 then (b.byte a).setWidth 32
  else le32 (b.byte a) (b.byte (a + 1)) (b.byte (a + 2)) (b.byte (a + 3))

/-- The block replaced by `b`. -/
def State.setBlk (b : Block) (s : State) : State := { s with blk := b }

/-- The bus answers the host's access. -/
def State.respond (r : Response) (s : State) : State := { s with host := { s.host with response := r } }

/-- `raise BusError(addr)` (R310): the access ends with an error response and has no effect on the block. -/
def State.busError (addr : Nat) (s : State) : State := s.respond (.fault (.busError addr))

/-- A write that completes: the block becomes `b` and the bus answers OK. -/
def State.wrote (b : Block) (s : State) : State := (s.setBlk b).respond .ok

/-- The free value that the next unspecified read returns (U2). -/
def State.freeWord (s : State) : Word := Config.freeWord s.env.draws

/-- A free value has been drawn. -/
def State.drew (s : State) : State := { s with env := { s.env with draws := s.env.draws + 1 } }

/-- The next event: the first of the given inputs, and once they are used up a free one (R15, assumption 1). -/
def State.nextEvent (s : State) : Event := s.env.inputs.head?.getD (Config.freeEvent s.env.draws)

/-- The state once its next event has been taken from the inputs. -/
def State.advance (s : State) : State :=
  match s.env.inputs with
  | [] => s.drew
  | _ :: rest => { s with env := { s.env with inputs := rest } }

/-- Bytes go out to the device, in order (R91). -/
def State.send (bytes : Bytes) (s : State) : State := { s with env := { s.env with lineOut := s.env.lineOut ++ bytes } }

/-- `k` where the access before it answered next; the same stop where it stopped. -/
def andThen (o : Host.Outcome State Fault Refusal) (k : State → Host.Outcome State Fault Refusal) :
    Host.Outcome State Fault Refusal :=
  match o with
  | .next s => k s
  | .fault r => .fault r
  | .refused r => .refused r

end Sys2Proof.Machine
end

