-- ==== Sys2Proof/Machine/Operands.lean ====
section
/-!
DEFINITION. What commands take from the block: the bytes of the two buffers (R20, R51), the length registers and their
checks (R170, R175, R190), and the parts that BUILD and XCHG share, as well as PARSE and XCHG.
-/
namespace Sys2Proof.Machine

/-- `TXBUF[i]` (R20). -/
def Block.txByte (b : Block) (i : Nat) : Byte := b.byte (txBase + i)

/-- `RXBUF[i]` (R20). -/
def Block.rxByte (b : Block) (i : Nat) : Byte := b.byte (rxBase + i)

/-- `TXBUF[0..n-1]` (R20). -/
def Block.txBytes (b : Block) (n : Nat) : Bytes := (List.range n).map b.txByte

/-- `RXBUF[0..n-1]` (R20). -/
def Block.rxBytes (b : Block) (n : Nat) : Bytes := (List.range n).map b.rxByte

/-- BUILD's length check (R170), the sum without wrap-around. -/
def txLengthOk (c : Config) (b : Block) : Bool := b.txLen.toNat ≠ 0 && b.txLen.toNat + 2 ≤ c.txbufSize

/-- The checksum BUILD computes (R170, R171): from 0xFFFF, over TXBUF[0..TX_LEN-1]. -/
def Block.txChecksum (b : Block) : Half := crc16 (b.txBytes b.txLen.toNat)

/-- BUILD's writes on success, before it completes (R170): two TXBUF bytes, CRC and TX_FRAME_LEN. -/
def Block.appendChecksum (b : Block) : Block :=
  let c := b.txChecksum
  let L := b.txLen.toNat
  { (b.poke (txBase + L) (hi8 c)).poke (txBase + L + 1) (lo8 c) with
    crc := c
    txFrameLen := BitVec.ofNat 32 (L + 2) }

/-- A failed BUILD's one write, before it completes (R170). -/
def Block.dropFrame (b : Block) : Block := { b with txFrameLen := 0 }

/-- Are `RXBUF[0..2]` the header (R124, R190)? -/
def Block.headerOk (b : Block) : Bool := [b.rxByte 0, b.rxByte 1, b.rxByte 2] == header

/-- Are `RXBUF[L-3..L-1]` the footer (R124, R190)? -/
def Block.footerOk (b : Block) (L : Nat) : Bool := [b.rxByte (L - 3), b.rxByte (L - 2), b.rxByte (L - 1)] == footer

/-- The code PARSE ends with: its checks in the order of R190 and R204. -/
def parseCode (c : Config) (b : Block) : ErrCode :=
  let L := b.rxLen.toNat
  if L > c.rxbufSize then .rxLength
  else if L < 6 then .malformedLength
  else if !b.headerOk then .malformedHeader
  else if !b.footerOk L then .malformedFooter
  else if L < 10 then .malformedShort
  else if b.rxByte 3 ≠ 0x00#8 then .deviceError
  else .none

/-- The codes with which PARSE reaches field extraction (R195, R196, R197). -/
def ErrCode.extracts : ErrCode → Bool
  | .none | .deviceError => true
  | .malformedLength | .malformedHeader | .malformedFooter | .malformedShort => false
  | .crcMismatch | .txLength | .rxLength | .rxOverflow | .noResponse | .illegalCmd => false

/-- The extraction registers all 0: `fail` of R190, without its completion. -/
def Block.clearExtraction (b : Block) : Block :=
  { b with rxStatus := 0, rxReserved := 0, rxBodyLen := 0, rxTrailer := 0, rxHeader := 0, rxFooter := 0 }

/-- The extraction registers filled from RXBUF (R190, R195), with L = RX_LEN. -/
def Block.extract (b : Block) : Block :=
  let L := b.rxLen.toNat
  { b with
    rxStatus := b.rxByte 3
    rxReserved := b.rxByte 4
    rxBodyLen := BitVec.ofNat 32 (L - 10)
    rxTrailer := be16 (b.rxByte (L - 5)) (b.rxByte (L - 4))
    rxHeader := be24 (b.rxByte 0) (b.rxByte 1) (b.rxByte 2)
    rxFooter := be24 (b.rxByte (L - 3)) (b.rxByte (L - 2)) (b.rxByte (L - 1)) }

/-- PARSE's writes to the extraction registers, before it completes (R190). -/
def parseFields (c : Config) (b : Block) : Block :=
  if (parseCode c b).extracts then b.extract else b.clearExtraction

/-- The checksum a command frame in RXBUF should carry (R175): over RXBUF[0..L-3]. -/
def Block.checkComputed (b : Block) : Half := crc16 (b.rxBytes (b.rxLen.toNat - 2))

/-- The checksum a command frame in RXBUF carries (R175): its last two bytes, high byte first. -/
def Block.checkReceived (b : Block) : Half := be16 (b.rxByte (b.rxLen.toNat - 2)) (b.rxByte (b.rxLen.toNat - 1))

/-- The CTRL write that issues a command other than NOP (R35, R110): IE first; a command written while BUSY = 1 is
dropped and sets CMD_OVERRUN (R305); otherwise DONE is cleared (R37) and the command runs. -/
def State.issue (ie : Bool) (cmd : Config → Block → Block) (s : State) : State :=
  let b := { s.blk with ie := ie }
  s.wrote (if b.busy then { b with cmdOverrun := true } else cmd s.cfg b.accept)

end Sys2Proof.Machine
end

