-- ==== Sys2Proof/Machine/ChecksumUnit.lean ====
section
/-!
DEFINITION. The checksum unit (40_checksum.md): CRC_INIT and CRC_UPDATE.
-/
namespace Sys2Proof.Machine

/-- CRC_INIT's body (R152). -/
def crcInit (b : Block) : Block := Block.complete .none { b with crc := crcInitValue }

/-- CRC_INIT (R152). -/
def execCrcInit (ie : Bool) (s : State) : Host.Outcome State Fault Refusal :=
  .next (s.issue ie fun _ b => crcInit b)

/-- One checksum byte step on the CRC register (R42, R153). -/
def Block.updateCrc (data : Byte) (b : Block) : Block := { b with crc := crcStep b.crc data }

/-- CRC_UPDATE (R153): a write to CRC_DATA; a bus error while BUSY = 1, else one step of the checksum. -/
def execCrcUpdate (data : Byte) (s : State) : Host.Outcome State Fault Refusal :=
  .next (if s.blk.busy then s.busError 0x18 else s.wrote (s.blk.updateCrc data))

end Sys2Proof.Machine
end

