-- ==== Sys2Proof/Machine/Builder.lean ====
section
/-!
DEFINITION. The frame builder and command-frame checker (41_builder.md): BUILD, CHECK, NOP and the reserved commands.
-/
namespace Sys2Proof.Machine

/-- BUILD's body (R170). -/
def build (c : Config) (b : Block) : Block :=
  if txLengthOk c b then b.appendChecksum.complete .none else b.dropFrame.complete .txLength

/-- BUILD (R170). -/
def execBuild (ie : Bool) (s : State) : Host.Outcome State Fault Refusal := .next (s.issue ie build)

/-- CHECK's body (R175). -/
def check (c : Config) (b : Block) : Block :=
  let L := b.rxLen.toNat
  if L > c.rxbufSize then b.complete .rxLength
  else if L < 3 then b.complete .malformedLength
  else Block.complete (if b.checkComputed = b.checkReceived then .none else .crcMismatch)
    { b with crc := b.checkComputed, rxTrailer := b.checkReceived }

/-- CHECK (R175). -/
def execCheck (ie : Bool) (s : State) : Host.Outcome State Fault Refusal := .next (s.issue ie check)

/-- NOP (R180): no command; the CTRL write only sets IE, whatever BUSY is. -/
def execNop (ie : Bool) (s : State) : Host.Outcome State Fault Refusal := .next (s.wrote { s.blk with ie := ie })

/-- The body of a command the block does not have (R181). -/
def illegal (b : Block) : Block := b.complete .illegalCmd

/-- CMD = 0x6 or 0x7 (R181). Which of the two was written changes nothing. -/
def execReserved67 (ie : Bool) (s : State) : Host.Outcome State Fault Refusal :=
  .next (s.issue ie fun _ b => illegal b)

/-- CMD = 0x8-0xF (R181). Which of them was written changes nothing. -/
def execReserved8F (ie : Bool) (s : State) : Host.Outcome State Fault Refusal :=
  .next (s.issue ie fun _ b => illegal b)

end Sys2Proof.Machine
end

