-- ==== Sys2Proof/Machine/Engine.lean ====
section
/-!
DEFINITION. The protocol engine (43_engine.md): XCHG's acceptance, and the steps of the engine and of the line
environment while an exchange runs.
-/
namespace Sys2Proof.Machine

/-- The start of an exchange whose BUILD succeeded (R221). -/
def Block.startExchange (b : Block) : Block :=
  { b with
    busy := true
    engState := .frameSent
    txi := 0
    rxn := 0
    ovf := false
    capturing := true
    idleTimer := .stopped }

/-- XCHG's acceptance (R221), or its rejection on a block without the engine (R181). -/
def xchg (c : Config) (b : Block) : Block :=
  if !c.enginePresent then illegal b
  else if txLengthOk c b then b.appendChecksum.startExchange
  else Block.complete .txLength { b.dropFrame with engState := .failed }

/-- XCHG (R220). -/
def execXchg (ie : Bool) (s : State) : Host.Outcome State Fault Refusal := .next (s.issue ie xchg)

/-- Is the transmit step enabled (R222)? -/
def Block.canTransmit (b : Block) : Bool := b.engState == .frameSent && b.txi < b.txFrameLen.toNat

/-- The transmit step on the block (R222): the character leaves the line at its stop bit's level, and after the last
one the engine awaits the response. -/
def Block.transmit (b : Block) : Block :=
  let last := b.txi + 1 = b.txFrameLen.toNat
  { b with
    txi := b.txi + 1
    txLine := (uartChar (b.txByte b.txi)).getLsbD 9
    engState := if last then .awaitingResponse else b.engState
    idleTimer := if last then .running else b.idleTimer }

/-- The engine's step (R222): `uart_send(TXBUF[txi])`. Nothing happens where it is not enabled. -/
def engineTx (s : State) : State :=
  if s.blk.canTransmit then (s.send [s.blk.txByte s.blk.txi]).setBlk s.blk.transmit else s

/-- The receive step on a capturing block (R227). -/
def Block.receive (c : Config) (byte : Byte) (b : Block) : Block :=
  if b.rxn < c.rxbufSize then
    { b.poke (rxBase + b.rxn) byte with rxn := b.rxn + 1, idleTimer := .running }
  else { b with ovf := true, idleTimer := .running }

/-- A byte arrives at the block's receiver (R226, R227): discarded unless an exchange is capturing. -/
def receive (byte : Byte) (s : State) : State :=
  if s.blk.capturing then s.setBlk (s.blk.receive s.cfg byte) else s

/-- Is the idle step enabled (R228)? -/
def Block.canIdle (b : Block) : Bool := b.capturing && b.engState == .awaitingResponse

/-- Completion's first part (R229): capture stops and RX_LEN takes the number of bytes stored. -/
def Block.stopCapture (b : Block) : Block :=
  { b with capturing := false, idleTimer := .stopped, rxLen := BitVec.ofNat 32 b.rxn }

/-- The code an XCHG ends with (R230, R325), on the block after `stopCapture`. -/
def exchangeCode (c : Config) (b : Block) : ErrCode :=
  if b.rxn = 0 then .noResponse else if b.ovf then .rxOverflow else parseCode c b

/-- Completion (R229, R230): the extraction registers, ENG_STATE, BUSY, then ERR and DONE, in one step. -/
def finishExchange (c : Config) (b : Block) : Block :=
  let b := b.stopCapture
  let code := exchangeCode c b
  Block.complete code
    { (if code.extracts then b.extract else b.clearExtraction) with
      engState := if code = .none then .decoded else .failed
      busy := false }

/-- The line is idle (R228): the exchange completes at once where the step is enabled; elsewhere nothing happens. -/
def lineIdle (s : State) : State :=
  if s.blk.canIdle then s.setBlk (finishExchange s.cfg s.blk) else s

/-- The platform asserts reset (R340, R342): every piece of block state takes its reset value, in one step; an exchange
is abandoned. The host agent and what has already been sent are outside the block. -/
def resetBlock (s : State) : State := s.setBlk (Block.reset s.cfg (s.blk.epoch + 1))

end Sys2Proof.Machine
end

