-- ==== Sys2Proof/Machine/Parser.lean ====
section
/-!
DEFINITION. The response parser (42_parser.md): PARSE.
-/
namespace Sys2Proof.Machine

/-- PARSE's body (R190): the extraction registers, then completion with the first failing check's code. -/
def parse (c : Config) (b : Block) : Block := (parseFields c b).complete (parseCode c b)

/-- PARSE (R190). -/
def execParse (ie : Bool) (s : State) : Host.Outcome State Fault Refusal := .next (s.issue ie parse)

end Sys2Proof.Machine
end

