-- ==== Sys2Proof/Machine/Sandbox.lean ====
section
/-!
DEFINITION. The path sandbox (44_transfer_procedures.md R262, R263): pure algebra on byte strings, performed by the
host before a frame is built.
-/
namespace Sys2Proof.Machine

/-- ROOT, the bytes of "/flash" (R12, R260). -/
def root : Bytes := [0x2F, 0x66, 0x6C, 0x61, 0x73, 0x68]

/-- The separator '/' (R263). -/
def slash : Byte := 0x2F

/-- One segment of the clean loop of R263, on the stack of segments kept so far, the last kept first. -/
def cleanSegment (kept : List Bytes) (seg : Bytes) : List Bytes :=
  if seg = [] ∨ seg = [0x2E] then kept
  else if seg = [0x2E, 0x2E] then kept.tail
  else seg :: kept

/-- The segments of a path after lexical cleaning, in order (R263). -/
def cleanSegments (x : Bytes) : List Bytes :=
  ((splitAt slash x).foldl cleanSegment []).reverse

/-- `clean(x)` (R263). -/
def clean (x : Bytes) : Bytes := slash :: joinWith slash (cleanSegments x)

/-- Is `s` the root itself or inside it, by whole segments (R263)? -/
def inRoot (s : Bytes) : Bool := s == root || (root ++ [slash]).isPrefixOf s

/-- The two ways the sandbox rejects a path (R262). -/
inductive SandboxError where
  | absolutePathRejected
  | pathEscape
  deriving DecidableEq, Repr

/-- `Normalize(root, userPath)` (R262, R263). -/
def normalizePath (userPath : Bytes) : Except SandboxError Bytes :=
  if userPath.head? = some slash then .error .absolutePathRejected
  else if inRoot (clean (root ++ slash :: userPath)) then .ok (clean (root ++ slash :: userPath))
  else .error .pathEscape

/-- A SandboxedPath (R262): a normalized descendant of the root. -/
def isSandboxed (p : Bytes) : Bool := inRoot p && clean p == p

end Sys2Proof.Machine
end

