-- ==== Sys2Proof/Syntax.lean ====
section
/-!
DEFINITION. The instructions of spec/opcode_table.json, one constructor a row, with the operands the row's encoding
carries. Bits the encoding ignores (CTRL bits [7:4] and [31:9], CRC_DATA bits [31:8]; R111, R112) are no operands.
-/
namespace Sys2Proof

/-- One row of the opcode table. `ie` is the interrupt enable that goes with every CTRL write (R110). -/
inductive Instr where
  /-- CMD = 0x0 (R180). -/
  | nop (ie : Bool)
  /-- CMD = 0x1 (R152). -/
  | crcInit (ie : Bool)
  /-- CMD = 0x2 (R170). -/
  | build (ie : Bool)
  /-- CMD = 0x3 (R190). -/
  | parse (ie : Bool)
  /-- CMD = 0x4 (R175). -/
  | check (ie : Bool)
  /-- CMD = 0x5 (R220). -/
  | xchg (ie : Bool)
  /-- CMD = 0x6 or 0x7, told apart by CMD bit 0 (R181). -/
  | reserved67 (ie : Bool) (bit0 : Bool)
  /-- CMD = 0x8-0xF, told apart by CMD bits [2:0] (R181). -/
  | reserved8F (ie : Bool) (low : BitVec 3)
  /-- A write of `data` to CRC_DATA (R112, R153). -/
  | crcUpdate (data : Byte)
  /-- Wire opcode 0x03 with a sandboxed path (R128, R267). -/
  | listDir (path : Bytes)
  /-- Wire opcode 0x05 with a sandboxed path (R128, R269). -/
  | download (path : Bytes)
  /-- Wire opcode 0x06 with path, chunk flag and chunk (R129, R272). -/
  | upload (path : Bytes) (flag : Byte) (chunk : Bytes)
  /-- Wire opcode 0x07 with a sandboxed path (R128, R276). -/
  | remove (path : Bytes)
  deriving DecidableEq, Repr

end Sys2Proof
end

