-- ==== Sys2Proof/WellFormed.lean ====
section
/-!
DEFINITION. Which instructions and transactions the host may write down: a path in a frame has passed the sandbox
(R262), an Upload frame keeps the limits of R129, and a transaction is 8 or 32 bits wide at a 17-bit address (R141).
-/
namespace Sys2Proof

/-- R129 and R260: an Upload's path has 1 to 39 bytes. -/
def uploadPathFits (p : Bytes) : Bool := 1 ≤ p.length && p.length ≤ 39

/-- The checks on an instruction's operands. An Upload path that holds 0x00 is never refused by a procedure (R280), but
its frame cannot be read back unambiguously (assumption 26), so it is not well-formed syntax. -/
def Instr.wf : Instr → Bool
  | .nop _ | .crcInit _ | .build _ | .parse _ | .check _ | .xchg _ => true
  | .reserved67 _ _ | .reserved8F _ _ | .crcUpdate _ => true
  | .listDir p | .download p | .remove p => Machine.isSandboxed p
  | .upload p flag chunk =>
    Machine.isSandboxed p && uploadPathFits p && p.all (· != 0x00#8) && (flag == 0x00#8 || flag == 0x01#8)
      && chunk.length ≤ 256

/-- R87, R141: a host access is 8 or 32 bits wide, at a 17-bit block-relative address. -/
def Access.wf (a : Access) : Bool := (a.size == 1 || a.size == 4) && decide (a.off < 0x20000)

end Sys2Proof
end

