-- ==== Sys2Proof/Decode.lean ====
section
/-!
DEFINITION. Decoding (30_encoding.md) of a bus transaction or of a command frame into an instruction, total and
rejecting by name; then the encoder; then the opcode table's own numbering of the words.
-/
namespace Sys2Proof

/-- Why a packet is no instruction of the opcode table. -/
inductive DecodeError where
  /-- A read is a plain register or buffer access. -/
  | notAWrite
  /-- Commands are 32-bit writes (R110, R112). -/
  | notAWordWrite
  /-- A write to an offset other than CTRL and CRC_DATA is a plain register or buffer access. -/
  | notACommandRegister
  /-- A command frame has at least three bytes (R120). -/
  | shortFrame
  /-- Byte 0 is none of the four wire opcodes (R127, R132). -/
  | unknownOpcode
  /-- An Upload payload has no separator and flag (R129). -/
  | uploadLayout
  deriving DecidableEq, Repr

/-- Offset of CTRL (R32). -/
def ctrlOffset : Nat := 0x00

/-- Offset of CRC_DATA (R32). -/
def crcDataOffset : Nat := 0x18

/-- The command a CTRL write of `v` issues (R110, R111): CMD in v[3:0], IE in v[8], every other bit ignored. -/
def decodeCtrl (v : Word) : Instr :=
  let ie := v.getLsbD 8
  match (v.extractLsb' 0 4).toNat with
  | 0x0 => .nop ie
  | 0x1 => .crcInit ie
  | 0x2 => .build ie
  | 0x3 => .parse ie
  | 0x4 => .check ie
  | 0x5 => .xchg ie
  | 0x6 => .reserved67 ie false
  | 0x7 => .reserved67 ie true
  | _ => .reserved8F ie (v.extractLsb' 0 3)

/-- A bus transaction (R110, R112). -/
def decodeAccess (a : Access) : Except DecodeError Instr :=
  match a.dir with
  | .R => .error .notAWrite
  | .W =>
    if a.size ≠ 4 then .error .notAWordWrite
    else if a.off = ctrlOffset then .ok (decodeCtrl a.data)
    else if a.off = crcDataOffset then .ok (.crcUpdate (Machine.lane a.data 0))
    else .error .notACommandRegister

/-- An Upload payload (R129): the path up to the first 0x00, then the flag, then the chunk. A path may itself hold 0x00
(R280), and the spec does not say which 0x00 of a given frame is then the separator; the first is the model's choice
(assumption 26). -/
def splitUpload : Bytes → Option (Bytes × Byte × Bytes)
  | [] => none
  | b :: rest =>
    if b = 0x00#8 then
      match rest with
      | [] => none
      | flag :: chunk => some ([], flag, chunk)
    else (splitUpload rest).map fun (p, flag, chunk) => (b :: p, flag, chunk)

/-- The instruction a wire opcode and its payload stand for (R127, R128). -/
def decodeWire (op : Byte) (payload : Bytes) : Except DecodeError Instr :=
  match op.toNat with
  | 0x03 => .ok (.listDir payload)
  | 0x05 => .ok (.download payload)
  | 0x06 =>
    match splitUpload payload with
    | some (p, flag, chunk) => .ok (.upload p flag chunk)
    | none => .error .uploadLayout
  | 0x07 => .ok (.remove payload)
  | _ => .error .unknownOpcode

/-- A frame's opcode and payload (R120): the last two bytes are the checksum. BUILD computes the checksum of every frame
that is sent, so the decoder does not compare it (assumption 8). -/
def frameParts : Bytes → Option (Byte × Bytes)
  | [] => none
  | op :: rest => if rest.length < 2 then none else some (op, rest.take (rest.length - 2))

/-- A command frame (R120, R127): a decoder matches the whole of byte 0. -/
def decodeFrame (bytes : Bytes) : Except DecodeError Instr :=
  match frameParts bytes with
  | none => .error .shortFrame
  | some (op, payload) => decodeWire op payload

/-- The decoder: total on every packet, rejecting by name. -/
def decode : Packet → Except DecodeError Instr
  | .bus a => decodeAccess a
  | .frame bytes => decodeFrame bytes

/-- The value that issues command `code` (R111): `0x100 | code` with interrupts enabled, `code` without. -/
def ctrlValue (ie : Bool) (code : BitVec 4) : Word := 0#23 ++ BitVec.ofBool ie ++ 0#4 ++ code

/-- A CTRL write (R110). -/
def ctrlWrite (ie : Bool) (code : BitVec 4) : Packet := .bus ⟨.W, 4, ctrlOffset, ctrlValue ie code⟩

/-- Upload's payload (R128, R129). -/
def uploadPayload (path : Bytes) (flag : Byte) (chunk : Bytes) : Bytes := path ++ 0x00#8 :: flag :: chunk

/-- The words of an instruction, its ignored bits 0. -/
def encode : Instr → Packet
  | .nop ie => ctrlWrite ie 0x0
  | .crcInit ie => ctrlWrite ie 0x1
  | .build ie => ctrlWrite ie 0x2
  | .parse ie => ctrlWrite ie 0x3
  | .check ie => ctrlWrite ie 0x4
  | .xchg ie => ctrlWrite ie 0x5
  | .reserved67 ie bit0 => ctrlWrite ie (0b011#3 ++ BitVec.ofBool bit0)
  | .reserved8F ie low => ctrlWrite ie (1#1 ++ low)
  | .crcUpdate data => .bus ⟨.W, 4, crcDataOffset, data.setWidth 32⟩
  | .listDir p => .frame (Machine.encodeFrame 0x03 p)
  | .download p => .frame (Machine.encodeFrame 0x05 p)
  | .upload p flag chunk => .frame (Machine.encodeFrame 0x06 (uploadPayload p flag chunk))
  | .remove p => .frame (Machine.encodeFrame 0x07 p)

/-- The packet that a word of spec/opcode_table.json stands for. The table numbers three kinds of words from bit 0: a CTRL
value, the offset of a register write (CRC_UPDATE's row, 17 bits), and byte 0 of a frame (8 bits). Where one number fits
two rows the row with the longer mask is taken, so the byte-wide 0x03, 0x05, 0x06 and 0x07 are wire opcodes (assumption 9).
A frame's bytes after byte 0 are zeros, up to the five bytes of the shortest Upload frame. -/
def tablePacket (nbits w : Nat) : Packet :=
  if nbits ≤ 8 ∧ (w = 0x03 ∨ w = 0x05 ∨ w = 0x06 ∨ w = 0x07) then .frame [BitVec.ofNat 8 w, 0, 0, 0, 0]
  else if 8 < nbits ∧ nbits ≤ 24 then .bus ⟨.W, 4, w % 0x20000, 0⟩
  else .bus ⟨.W, 4, ctrlOffset, BitVec.ofNat 32 w⟩

/-- What the decoder reads from a word of the opcode table. -/
def decodeTableWord (nbits w : Nat) : Option Instr := (decode (tablePacket nbits w)).toOption

end Sys2Proof
end

