-- ==== Sys2Proof/Machine/Procedures.lean ====
section
/-!
DEFINITION. The host procedures (44_transfer_procedures.md): how an operation starts, which accesses an Exchange
consists of (in the host syntax of R140-R142), and what the end of an exchange means to each procedure. The meanings of
the four wire opcodes stand here.
-/
namespace Sys2Proof.Machine

/-- `wr32 off, value` (R140). -/
def wr32 (off : Nat) (value : Word) : Access := ⟨.W, 4, off, value⟩

/-- `wr8 off, value` (R140). -/
def wr8 (off : Nat) (value : Byte) : Access := ⟨.W, 1, off, value.setWidth 32⟩

/-- `rd32 off` (R140). -/
def rd32 (off : Nat) : Access := ⟨.R, 4, off, 0⟩

/-- `rd8 off` (R140). -/
def rd8 (off : Nat) : Access := ⟨.R, 1, off, 0⟩

/-- `cmd NAME` (R142): IE = 0. -/
def cmd (code : BitVec 4) : Access := wr32 ctrlOffset (ctrlValue false code)

/-- `cmdi NAME` (R142): IE = 1. -/
def cmdi (code : BitVec 4) : Access := wr32 ctrlOffset (ctrlValue true code)

/-- `clrdone` (R142). -/
def clrdone : Access := wr32 0x04 0x6

/-- `wrbytes BUF+i, "s"`, or `wrhex` with the bytes listed (R142): one `wr8` a byte, in order, from `off` on. -/
def wrbytes (off : Nat) : Bytes → List Access
  | [] => []
  | b :: rest => wr8 off b :: wrbytes (off + 1) rest

/-- The value a host writes to a length register for `n` bytes (R265, R281). A count that 32 bits cannot hold is written as
0xFFFFFFFF, which is too long for either buffer, as the count is (R280, R281; assumption 16). -/
def lengthWord (n : Nat) : Word := BitVec.ofNat 32 (min n 0xFFFFFFFF)

/-- The writes with which an Exchange begins: R265 (a host that waits for irq issues `cmdi XCHG`), and R281 for a block
without the engine. -/
def exchangeWrites (c : Config) (useIrq : Bool) (op : Byte) (payload : Bytes) : List Access :=
  wrbytes txBase (op :: payload) ++ wr32 0x1C (lengthWord (1 + payload.length)) ::
    (if c.enginePresent then [clrdone, if useIrq then cmdi 0x5 else cmd 0x5] else [cmd 0x2])

/-- Where an Exchange begins, and how the host waits for it to end (R265, R281). -/
def exchangeStart (c : Config) (useIrq : Bool) (op : Byte) (payload : Bytes) : Phase :=
  .issue (exchangeWrites c useIrq op payload)
    (if c.enginePresent then (if useIrq then .awaitIrq else .pollBusy) else .checkBuild)

/-- The response of R281, loaded by hand: its bytes, its length, then PARSE. R281 does not say with which accesses the bytes
are written; one `wr8` a byte, in order, those past RXBUF_SIZE too, is the model's choice (assumption 29). -/
def loadResponse (got : Bytes) : List Access :=
  wrbytes rxBase got ++ [wr32 0x24 (lengthWord got.length), cmd 0x3]

/-- The host's running procedure becomes `t`. -/
def State.setTask (t : Option Task) (s : State) : State := { s with host := { s.host with task := t } }

/-- The operation has ended with `r`, and the host is ready for the next one (R278). -/
def State.finish (r : HostResult) (s : State) : State := { s with host := { s.host with task := none, result := some r } }

/-- `Exchange(op, payload)` begins for the procedure `kind` (R265). -/
def startExchange (kind : TaskKind) (op : Byte) (payload : Bytes) (s : State) : State :=
  s.setTask (some ⟨kind, exchangeStart s.cfg s.host.useIrq op payload⟩)

/-- The accesses of a host before its first exchange: R346's, in its order, then R347's. -/
def bootAccesses (uartDiv engTimeout : Option Word) (ie : Bool) : List Access :=
  [rd32 0x08, rd32 0x0C, rd32 0x10] ++ (uartDiv.map (wr32 0x48)).toList ++ (engTimeout.map (wr32 0x44)).toList ++
    [clrdone, if ie then cmdi 0x0 else cmd 0x0]

/-- CHUNK (R260). -/
def chunkSize : Nat := 256

/-- PATH_MAX (R260). -/
def pathMax : Nat := 39

/-- Starts the exchange for the session's next chunk (R271, R272, R277): its flag is 0x01 only for the first. -/
def sendChunk (u : Session) (s : State) : State :=
  let chunk := u.rest.take chunkSize
  let flag : Byte := if u.firstChunkSent then 0x00 else 0x01
  startExchange (.upload { u with chunk := chunk, rest := u.rest.drop chunkSize, firstChunkSent := true }) 0x06
    (uploadPayload u.remotePath flag chunk) s

/-- The sandbox's error as the host reports it (R306). -/
def sandboxFailure : SandboxError → HostError
  | .absolutePathRejected => .absolutePathRejected
  | .pathEscape => .pathEscape

/-- Upload after its path has passed the sandbox: steps 2 and 3 of R270, then the first chunk (R271). -/
def startUpload (source : Option Bytes) (p : Bytes) (s : State) : State :=
  if p.length > pathMax then s.finish (.failed .pathTooLong)
  else match source with
    | none => s.finish (.failed .localIOError)
    | some [] => s.finish (.uploaded 0)
    | some data => sendChunk ⟨p, false, 0, [], data, data.length⟩ s

/-- An idle host takes up an operation (R267, R269, R270, R276). The last result and progress are forgotten first
(R261). -/
def startOp (op : HostOp) (s : State) : State :=
  let s := { s with host := { s.host with result := none, progress := [] } }
  match op with
  | .listDir none | .listDir (some []) => startExchange .listDir 0x03 root s
  | .listDir (some path) =>
    match normalizePath path with
    | .ok p => startExchange .listDir 0x03 p s
    | .error _ => s.finish (.listing [])
  | .download path dest =>
    match normalizePath path with
    | .ok p => startExchange (.download dest) 0x05 p s
    | .error e => s.finish (.failed (sandboxFailure e))
  | .upload source remotePath =>
    match normalizePath remotePath with
    | .ok p => startUpload source p s
    | .error e => s.finish (.failed (sandboxFailure e))
  | .remove path =>
    match normalizePath path with
    | .ok p => startExchange .remove 0x07 p s
    | .error e => s.finish (.failed (sandboxFailure e))
  | .send kind op payload => startExchange kind op payload s
  | .boot uartDiv engTimeout ie => s.setTask (some ⟨.boot, .issue (bootAccesses uartDiv engTimeout ie) .finished⟩)

/-- Is the host free to take up an operation (R278)? -/
def HostAgent.free (h : HostAgent) : Bool := h.task.isNone && h.waiting.isEmpty

/-- The operator asks for an operation (R278): the host runs one procedure at a time, so it waits its turn
(assumption 13). -/
def request (op : HostOp) (s : State) : State :=
  if s.host.free then startOp op s
  else { s with host := { s.host with waiting := s.host.waiting ++ [op] } }

/-- ListDir's frame (R128, R267). -/
def execListDir (path : Bytes) (s : State) : Host.Outcome State Fault Refusal :=
  .next (request (.send .listDir 0x03 path) s)

/-- Download's frame (R128, R269). A frame names no destination, so the body is for display. -/
def execDownload (path : Bytes) (s : State) : Host.Outcome State Fault Refusal :=
  .next (request (.send (.download .display) 0x05 path) s)

/-- The session of one Upload frame sent on its own: its chunk is the whole source. -/
def frameSession (path chunk : Bytes) : Session := ⟨path, true, 0, chunk, [], chunk.length⟩

/-- One Upload frame (R129, R272). -/
def execUpload (path : Bytes) (flag : Byte) (chunk : Bytes) (s : State) : Host.Outcome State Fault Refusal :=
  .next (request (.send (.upload (frameSession path chunk)) 0x06 (uploadPayload path flag chunk)) s)

/-- Remove's frame (R128, R276). -/
def execRemove (path : Bytes) (s : State) : Host.Outcome State Fault Refusal :=
  .next (request (.send .remove 0x07 path) s)

/-- The entries of a ListDir body (R268): the segments between commas, the empty ones left out. -/
def listEntries (body : Bytes) : List Bytes := (splitAt 0x2C body).filter fun seg => !seg.isEmpty

/-- The bytes of "done" (R273). -/
def doneText : Bytes := [0x64, 0x6F, 0x6E, 0x65]

/-- The bytes of "ok" (R276). -/
def okText : Bytes := [0x6F, 0x6B]

/-- The error a failed exchange is reported as (R266), from the ERR nibble the host read. -/
def errorOf (e : BitVec 4) : HostError :=
  match e.toNat with
  | 0x1 | 0x2 | 0x3 | 0x4 => .malformedFrame
  | 0xA => .noResponse
  | _ => .exchangeFailed e

/-- What an acknowledged chunk does (R273, R274): progress is reported, then the next chunk goes out or the upload
succeeds. -/
def chunkAcknowledged (u : Session) (s : State) : State :=
  let u := { u with bytesSent := u.bytesSent + u.chunk.length }
  let s := { s with host := { s.host with progress := s.host.progress ++ [(u.bytesSent, u.total)] } }
  if u.rest = [] then s.finish (.uploaded u.bytesSent) else sendChunk u s

/-- An exchange has ended with `Ok(body)` (R267, R269, R273, R276). -/
def exchangeOk (kind : TaskKind) (body : Bytes) (s : State) : State :=
  match kind with
  | .listDir => s.finish (.listing (listEntries body))
  | .download .display => s.finish (if validText body then .displayed body else .failed .notText)
  | .download (.file true) => s.finish (.saved body)
  | .download (.file false) => s.finish (.failed .localIOError)
  | .upload u =>
    if containsSeq doneText body then chunkAcknowledged u s
    else s.finish (.uploadFailed (.unexpectedResult body) u.bytesSent)
  | .remove => s.finish (if containsSeq okText body then .removed else .failed (.unexpectedResult body))
  | .raw => s.finish (.received body)
  | .boot => s.finish .booted

/-- An exchange has ended with an error: it ends the operation (R266, R275). -/
def exchangeError (kind : TaskKind) (e : HostError) (s : State) : State :=
  match kind with
  | .upload u => s.finish (.uploadFailed e u.bytesSent)
  | .listDir | .download _ | .remove | .raw | .boot => s.finish (.failed e)

/-- The end of an exchange. -/
def exchangeEnded (kind : TaskKind) (r : Exchanged) (s : State) : State :=
  match r with
  | .ok body => exchangeOk kind body s
  | .error e => exchangeError kind e s

/-- The host program stops (R279): it issues no more accesses; the block is untouched. -/
def hostStop (s : State) : State := { s with host := { s.host with task := none, waiting := [] } }

end Sys2Proof.Machine
end

