-- ==== Sys2Proof/Machine/Dispatch.lean ====
section
/-!
DEFINITION. One arm per constructor of `Instr`, each one call of that instruction's meaning.
-/
namespace Sys2Proof.Machine

/-- The meaning of an instruction. -/
def exec (i : Instr) (s : State) : Host.Outcome State Fault Refusal :=
  match i with
  | .nop ie => Sys2Proof.Machine.execNop ie s
  | .crcInit ie => Sys2Proof.Machine.execCrcInit ie s
  | .build ie => Sys2Proof.Machine.execBuild ie s
  | .parse ie => Sys2Proof.Machine.execParse ie s
  | .check ie => Sys2Proof.Machine.execCheck ie s
  | .xchg ie => Sys2Proof.Machine.execXchg ie s
  | .reserved67 ie _ => Sys2Proof.Machine.execReserved67 ie s
  | .reserved8F ie _ => Sys2Proof.Machine.execReserved8F ie s
  | .crcUpdate data => Sys2Proof.Machine.execCrcUpdate data s
  | .listDir path => Sys2Proof.Machine.execListDir path s
  | .download path => Sys2Proof.Machine.execDownload path s
  | .upload path flag chunk => Sys2Proof.Machine.execUpload path flag chunk s
  | .remove path => Sys2Proof.Machine.execRemove path s

end Sys2Proof.Machine
end

