-- ==== Sys2Proof/Machine/Bus.lean ====
section
/-!
DEFINITION. Host bus accesses (20_memory.md): MemRead and MemWrite over the windows, the CSR map of 10_state.md R32, and
the run of a packet: a transaction that decodes to an instruction runs it, any other is a plain access.
-/
namespace Sys2Proof.Machine

/-- The value a CSR reads as, where it is defined (R32-R50); an unused offset reads as 0 (R33). -/
def csrValue (c : Config) (b : Block) (off : Nat) : Word :=
  match off with
  | 0x00 => b.ctrlWord
  | 0x04 => b.statusWord
  | 0x08 => capsWord c
  | 0x0C => BitVec.ofNat 32 c.txbufSize
  | 0x10 => BitVec.ofNat 32 c.rxbufSize
  | 0x14 => b.crc.setWidth 32
  | 0x1C => b.txLen
  | 0x20 => b.txFrameLen
  | 0x24 => b.rxLen
  | 0x28 => b.rxBodyLen
  | 0x2C => b.rxTrailer.setWidth 32
  | 0x30 => b.rxHeader.setWidth 32
  | 0x34 => b.rxFooter.setWidth 32
  | 0x40 => if c.enginePresent then b.engState.code.setWidth 32 else 0
  | 0x44 => if c.enginePresent then b.engTimeout else 0
  | 0x48 => if c.enginePresent then b.uartDiv else 0
  | _ => 0

/-- The CSRs whose whole value is unspecified while BUSY = 1 (U2, D19): CRC, TX_FRAME_LEN, RX_LEN, RX_BODY_LEN, RX_TRAILER,
RX_HEADER and RX_FOOTER. -/
def unspecifiedWhileBusy (off : Nat) : Bool :=
  off == 0x14 || off == 0x20 || off == 0x24 || off == 0x28 || off == 0x2C || off == 0x30 || off == 0x34

/-- A CSR read (R38, U2). -/
def csrRead (off : Nat) (s : State) : State :=
  if s.blk.busy && unspecifiedWhileBusy off then s.drew.respond (.data s.freeWord)
  else if s.blk.busy && off == 0x04 then s.drew.respond (.data (s.blk.statusWhileBusy s.freeWord))
  else s.respond (.data (csrValue s.cfg s.blk off))

/-- A read of `n` bytes at address `a` of a buffer, at index `i` of its `size` bytes (R81, R84-R86). -/
def bufRead (a n i size : Nat) (s : State) : State :=
  if i + n > size then s.busError a
  else if s.blk.busy then s.drew.respond (.data (if n = 1 then s.freeWord &&& 0xFF else s.freeWord))
  else s.respond (.data (s.blk.load a n))

/-- The widths and alignments no window accepts (R83, R85, R87). -/
def badShape (a n : Nat) : Bool := (n != 1 && n != 4) || (n == 4 && a % 4 != 0)

/-- `MemRead(a, n)` (R80-R87). -/
def memRead (a n : Nat) (s : State) : State :=
  if badShape a n then s.busError a
  else match windowOf a with
    | .csr => if n ≠ 4 then s.busError a else csrRead a s
    | .tx i => bufRead a n i s.cfg.txbufSize s
    | .rx i => bufRead a n i s.cfg.rxbufSize s
    | .outside => s.busError a

/-- A WARL write (R50): 0 stores 1, any other value is stored as written. -/
def warl (v : Word) : Word := if v = 0 then 1 else v

/-- A write that gives a bus error while BUSY = 1 (R41-R45, R50). -/
def unlessBusy (off : Nat) (b : Block) (s : State) : State := if s.blk.busy then s.busError off else s.wrote b

/-- A CSR write other than a command (R33, R37, R41, R43, R45, R50). A write to a read-only or unused offset is ignored,
as is one to ENG_TIMEOUT or UART_DIV without the engine. CTRL and CRC_DATA do not come here: those writes are the
instructions of R110 and R112 (`busAccess`). -/
def csrWrite (off : Nat) (v : Word) (s : State) : State :=
  match off with
  | 0x04 => s.wrote (s.blk.writeStatus v)
  | 0x14 => unlessBusy off { s.blk with crc := v.extractLsb' 0 16 } s
  | 0x1C => unlessBusy off { s.blk with txLen := v } s
  | 0x24 => unlessBusy off { s.blk with rxLen := v } s
  | 0x44 => if s.cfg.enginePresent then unlessBusy off { s.blk with engTimeout := warl v } s else s.respond .ok
  | 0x48 => if s.cfg.enginePresent then unlessBusy off { s.blk with uartDiv := warl v } s else s.respond .ok
  | _ => s.respond .ok

/-- A write of `n` bytes at address `a` of a buffer, at index `i` of its `size` bytes (R81, R84-R86). -/
def bufWrite (a n i size : Nat) (v : Word) (s : State) : State :=
  if i + n > size then s.busError a
  else if s.blk.busy then s.busError a
  else s.wrote (s.blk.store a n v)

/-- `MemWrite(a, n, v)` (R80-R87), but for the two offsets whose writes are instructions. -/
def memWrite (a n : Nat) (v : Word) (s : State) : State :=
  if badShape a n then s.busError a
  else match windowOf a with
    | .csr => if n ≠ 4 then s.busError a else csrWrite a v s
    | .tx i => bufWrite a n i s.cfg.txbufSize v s
    | .rx i => bufWrite a n i s.cfg.rxbufSize v s
    | .outside => s.busError a

/-- An access that is no instruction. -/
def plainAccess (a : Access) (s : State) : State :=
  match a.dir with
  | .R => memRead a.off a.size s
  | .W => memWrite a.off a.size a.data s

/-- One host bus access (R15, R94): it takes full effect in this step. -/
def busAccess (a : Access) (s : State) : Host.Outcome State Fault Refusal :=
  match decodeAccess a with
  | .ok i => exec i s
  | .error _ => .next (plainAccess a s)

/-- The block-relative address of a host address, where it lies in the block's 128 KiB (R80, R82). -/
def blockOffset (c : Config) (address : Nat) : Option Nat :=
  if c.base ≤ address ∧ address < c.base + 0x20000 then some (address - c.base) else none

/-- An access at a host address (R80): the block's where it starts in its range; the platform's, and none of the block's
business, elsewhere (R82), also where it starts below BASE and reaches into the range. What the bus master gets for one of
these the spec leaves to the platform; that nothing of the state changes, the last response of the block among it, is the
model's choice (assumption 28). -/
def platformAccess (a : Access) (s : State) : Host.Outcome State Fault Refusal :=
  match blockOffset s.cfg a.off with
  | some off => busAccess { a with off := off } s
  | none => .next s

/-- The host takes up a packet: a transaction is performed; a command frame is exchanged as the procedure its opcode
names, and as a bare Exchange where no procedure reads it (R132, R134). -/
def runPacket (p : Packet) (s : State) : Host.Outcome State Fault Refusal :=
  match p with
  | .bus a => busAccess a s
  | .frame bytes =>
    match decodeFrame bytes with
    | .ok i => exec i s
    | .error _ =>
      match frameParts bytes with
      | some (op, payload) => .next (request (.send .raw op payload) s)
      | none => .refused .notACommandFrame

end Sys2Proof.Machine
end

