-- ==== Sys2Proof/Machine/Agents.lean ====
section
/-!
DEFINITION. The agents' steps (00_scope.md R15): the next access of the host's running procedure (R265, R281), and the
effect of each event.
-/
namespace Sys2Proof.Machine

/-- The value a read returned, or the address whose read got a bus error (R310). -/
def Response.value : Response → Except Nat Word
  | .data v => .ok v
  | .fault (.busError addr) => .error addr
  | .ok | .none => .ok 0

/-- The phase after a list of writes. -/
def AfterWrites.phase : AfterWrites → Phase
  | .pollBusy => .pollBusy
  | .awaitIrq => .awaitIrq
  | .checkBuild => .checkBuild
  | .readStatus => .readStatus
  | .finished => .finished

/-- The phase once the first of the writes still to be issued has been issued. -/
def issued (rest : List Access) (next : AfterWrites) : Phase :=
  match rest with
  | [] => next.phase
  | _ :: _ => .issue rest next

/-- The running procedure issues a read and goes on with the value it returns. A read that gets a bus error ends the
operation (assumption 15). -/
def readThen (kind : TaskKind) (a : Access) (k : Word → State → State) (s : State) : Host.Outcome State Fault Refusal :=
  andThen (busAccess a s) fun s =>
    match s.host.response.value with
    | .ok v => .next (k v s)
    | .error addr => .next (exchangeEnded kind (.error (.busFault addr)) s)

/-- A body has been read, or is empty (R265). -/
def bodyRead (kind : TaskKind) (deviceError : Bool) (body : Bytes) (s : State) : State :=
  exchangeEnded kind (if deviceError then .error (.deviceError body) else .ok body) s

/-- What the host does with the ERR it read at the end of an exchange (R265). -/
def statusRead (kind : TaskKind) (v : Word) (s : State) : State :=
  let e := v.extractLsb' 4 4
  if e = ErrCode.none.code then s.setTask (some ⟨kind, .readBodyLen false⟩)
  else if e = ErrCode.deviceError.code then s.setTask (some ⟨kind, .readBodyLen true⟩)
  else exchangeEnded kind (.error (errorOf e)) s

/-- The running procedure's next access (R265; R281 without the engine). A write's response is not looked at (R280,
assumption 14). While it collects bytes the host only waits. Without the engine it looks at ERR after BUILD, and ends the
exchange at any code but NONE (assumption 11). The only such code BUILD leaves is TX_LENGTH; what the host reports for another,
which only a second bus master's command can put there, is the model's choice: DEVICE_ERROR is then ExchangeFailed of its code,
with no body read (assumption 27). -/
def taskTurn (t : Task) (s : State) : Host.Outcome State Fault Refusal :=
  let goto (p : Phase) (s : State) : State := s.setTask (some ⟨t.kind, p⟩)
  match t.phase with
  | .issue [] next => .next (goto next.phase s)
  | .issue (a :: rest) next => andThen (busAccess a s) fun s => .next (goto (issued rest next) s)
  | .pollBusy => readThen t.kind (rd32 0x04) (fun v s => if v.getLsbD 0 then s else goto .readStatus s) s
  | .awaitIrq => .next (if s.irq then goto .readStatus s else s)
  | .readStatus => readThen t.kind (rd32 0x04) (statusRead t.kind) s
  | .readBodyLen de =>
    readThen t.kind (rd32 0x28)
      (fun v s => if v = 0 then bodyRead t.kind de [] s else goto (.readBody de v.toNat []) s) s
  | .readBody de left got =>
    readThen t.kind (rd8 (rxBase + 5 + got.length))
      (fun v s =>
        let got := got ++ [lane v 0]
        if left ≤ 1 then bodyRead t.kind de got s else goto (.readBody de (left - 1) got) s) s
  | .checkBuild =>
    readThen t.kind (rd32 0x04)
      (fun v s =>
        let e := v.extractLsb' 4 4
        if e = ErrCode.none.code then goto .readFrameLen s
        else exchangeEnded t.kind (.error (errorOf e)) s) s
  | .readFrameLen =>
    readThen t.kind (rd32 0x20) (fun v s => if v = 0 then goto (.collect []) s else goto (.readFrame v.toNat 0) s) s
  | .readFrame len index =>
    readThen t.kind (rd8 (txBase + index))
      (fun v s =>
        goto (if index + 1 < len then .readFrame len (index + 1) else .collect []) (s.send [lane v 0])) s
  | .collect _ => .next s
  | .finished => .next (s.finish .booted)

/-- The host's turn: its procedure's next access, or the operation that waits first (R278). -/
def hostTurn (s : State) : Host.Outcome State Fault Refusal :=
  match s.host.task, s.host.waiting with
  | some t, _ => taskTurn t s
  | none, op :: rest => .next (startOp op { s with host := { s.host with waiting := rest } })
  | none, [] => .next s

/-- The bytes the host's own read loop has collected, where it is collecting (R281). -/
def HostAgent.collecting (h : HostAgent) : Option (TaskKind × Bytes) :=
  match h.task with
  | some ⟨kind, .collect got⟩ => some (kind, got)
  | _ => none

/-- A byte arrives from the device: at the host's own read loop where it is collecting (R281), else at the block's
receiver (R226, R227), which discards it while it captures nothing. So a byte that reaches the host's own transport before
its read loop starts, while it still issues BUILD or sends the frame, is discarded and is no part of the response. The spec
does not say what becomes of it; that is the model's choice (assumption 25). -/
def lineByte (b : Byte) (s : State) : State :=
  match s.host.collecting with
  | some (kind, got) => s.setTask (some ⟨kind, .collect (got ++ [b])⟩)
  | none => receive b s

/-- The line is idle: the host's own read loop ends (R281), or the block's exchange completes (R228). -/
def lineQuiet (s : State) : State :=
  match s.host.collecting with
  | some (kind, []) => exchangeEnded kind (.error .noResponse) s
  | some (kind, got) => s.setTask (some ⟨kind, .issue (loadResponse got) .readStatus⟩)
  | none => lineIdle s

/-- A character arrives: its byte does (R223), unless it has a framing error, which discards it (R233). -/
def lineChar (c : BitVec 10) (s : State) : State :=
  match uartByte c with
  | some b => lineByte b s
  | none => s

/-- The effect of one event. -/
def runEvent (e : Event) (s : State) : Host.Outcome State Fault Refusal :=
  match e with
  | .transaction p => runPacket p s
  | .platformAccess a => platformAccess a s
  | .request op => .next (request op s)
  | .hostTurn => hostTurn s
  | .hostStop => .next (hostStop s)
  | .engineTx => .next (engineTx s)
  | .lineByte b => .next (lineByte b s)
  | .lineChar c => .next (lineChar c s)
  | .lineIdle => .next (lineQuiet s)
  | .reset => .next (resetBlock s)

/-- `s` with a packet as the very next input. -/
def State.withPacket (p : Packet) (s : State) : State :=
  { s with env := { s.env with inputs := .transaction p :: s.env.inputs } }

end Sys2Proof.Machine
end

