-- ==== Sys2Proof/Machine/Step.lean ====
section
/-!
DEFINITION. One step of the system: the next event, one at a time (60_exceptions.md R326).
-/
namespace Sys2Proof.Machine

/-- One step (R15, R326). -/
def step (s : State) : Host.Outcome State Fault Refusal := runEvent s.nextEvent s.advance

/-- `s` with the packet that a word of spec/opcode_table.json stands for as the next input (assumption 9). -/
def State.withFetchWord (s : State) (nbits w : Nat) : State := s.withPacket (tablePacket nbits w)

end Sys2Proof.Machine
end

