-- ==== Sys2Proof/Safety.lean ====
section
/-!
DEFINITION. What a sound state is: the relations between parts of the state that the rules keep. The claims about every
step are stated with them.
-/
namespace Sys2Proof.Machine

/-- The addresses at which the block has a buffer byte (R80, R81). -/
def bufferAddress (c : Config) (a : Nat) : Prop :=
  (txBase ≤ a ∧ a < txBase + c.txbufSize) ∨ (rxBase ≤ a ∧ a < rxBase + c.rxbufSize)

/-- What holds of a block with the parameters `c` in every state a run reaches. -/
structure Block.Inv (c : Config) (b : Block) : Prop where
  /-- The buffers' list is in its canonical form. -/
  memRising : Memory.wf b.mem
  /-- Only buffer bytes are ever listed (R81). -/
  memInside : ∀ x ∈ b.mem, bufferAddress c x.1
  /-- ENG_TIMEOUT is never 0 (R50). -/
  timeoutPositive : b.engTimeout ≠ 0
  /-- UART_DIV is never 0 (R50). -/
  divisorPositive : b.uartDiv ≠ 0
  /-- Between characters the transmit line idles high (R223). -/
  lineHigh : b.txLine = true
  /-- Only a block with the engine runs an exchange (R15, R181). -/
  busyEngine : b.busy = true → c.enginePresent = true
  /-- DONE reads 0 while an exchange runs (R38). -/
  busyNotDone : b.busy = true → b.done = false
  /-- Capture starts with BUSY and ends with it (R226). -/
  capturingBusy : b.capturing = b.busy
  /-- BUSY is 1 in exactly the two running states of R236. -/
  busyState : b.busy = true ↔ b.engState = .frameSent ∨ b.engState = .awaitingResponse
  /-- While transmitting, a byte is still to be sent (R222). -/
  sendingIndex : b.engState = .frameSent → b.txi < b.txFrameLen.toNat
  /-- While awaiting the response, every byte has been sent (R222). -/
  sentIndex : b.engState = .awaitingResponse → b.txi = b.txFrameLen.toNat
  /-- The frame being exchanged is the one BUILD made (R221), and its inputs have not moved (R234). -/
  busyFrame : b.busy = true →
    b.txFrameLen.toNat = b.txLen.toNat + 2 ∧ 0 < b.txLen.toNat ∧ b.txLen.toNat + 2 ≤ c.txbufSize
  /-- No more bytes are stored than RXBUF holds (R52, R227). -/
  storedFits : b.rxn ≤ c.rxbufSize
  /-- A byte is dropped only when RXBUF is full (R52, R227). -/
  overflowFull : b.ovf = true → b.rxn = c.rxbufSize
  /-- The idle timer exists only while an exchange is capturing (R331). -/
  timerCapturing : b.capturing = false → b.idleTimer = .stopped
  /-- It runs once the transmission has ended (R228). -/
  timerAwaiting : b.engState = .awaitingResponse → b.idleTimer = .running
  /-- RX_HEADER and RX_FOOTER hold the markers or 0 (R48). -/
  markers : (b.rxHeader = 0 ∧ b.rxFooter = 0) ∨ (b.rxHeader = 0xAAABAA ∧ b.rxFooter = 0xABCCAB)
  /-- Without the engine ENG_STATE is IDLE (R49). -/
  noEngine : c.enginePresent = false → b.engState = .idle

/-- A sound state: legal parameters (R13) and a sound block. -/
def State.Inv (s : State) : Prop := s.cfg.Legal ∧ s.blk.Inv s.cfg

/-- `k` steps, stopping at the first refusal. -/
def run : Nat → State → Host.Outcome State Fault Refusal
  | 0, s => .next s
  | k + 1, s => andThen (step s) (run k)

/-- The events of a list, one after another, each taking full effect before the next (R94, R326). -/
def play : List Event → State → Host.Outcome State Fault Refusal
  | [], s => .next s
  | e :: rest, s => andThen (runEvent e s) (play rest)

/-- `s` with the inputs `es` before it. -/
def State.withInputs (es : List Event) (s : State) : State := { s with env := { s.env with inputs := es } }

/-- `TXBUF[a .. a+n-1]`. -/
def Block.txFrom (b : Block) (a n : Nat) : Bytes := (List.range n).map fun i => b.txByte (a + i)

/-- `RXBUF[a .. a+n-1]`. -/
def Block.rxFrom (b : Block) (a n : Nat) : Bytes := (List.range n).map fun i => b.rxByte (a + i)

/-- The outcome is a next state that satisfies `P`. -/
def Answers (o : Host.Outcome State Fault Refusal) (P : State → Prop) : Prop := ∃ t, o = .next t ∧ P t

/-- `t` has the parameters and the environment of `s`: nothing was sent, drawn or taken from the inputs. -/
def sameOutside (s t : State) : Prop := t.cfg = s.cfg ∧ t.env = s.env

/-- The host agent but for the response of the last access. -/
def sameProgram (s t : State) : Prop := t.host = { s.host with response := t.host.response }

end Sys2Proof.Machine
end

