-- ==== Sys2Proof/Laws/Memory.lean ====
section
/-!
SUPPORT. The laws of the buffers' memory: read after write, other addresses, and the canonical form, which every
operation keeps.
-/
namespace Sys2Proof.Machine

theorem Memory.find_put_same (m : Memory) (a : Nat) (v : Byte) : Memory.find (Memory.put m a v) a = some v := by
  induction m with
  | nil => simp [Memory.put, Memory.find]
  | cons x rest ih =>
    obtain ⟨k, w⟩ := x
    simp only [Memory.put]
    split
    · simp [Memory.find]
    · split
      · simp [Memory.find]
      · have : k ≠ a := fun h => by omega
        simp [Memory.find, this, ih]

theorem Memory.find_put_other (m : Memory) {a a' : Nat} (v : Byte) (h : a' ≠ a) :
    Memory.find (Memory.put m a v) a' = Memory.find m a' := by
  induction m with
  | nil => simp [Memory.put, Memory.find, h.symm]
  | cons x rest ih =>
    obtain ⟨k, w⟩ := x
    simp only [Memory.put]
    split
    · simp [Memory.find, h.symm]
    · split
      · subst_vars
        simp [Memory.find, h.symm]
      · simp [Memory.find, ih]

/-- A written entry is the new one or an old one. -/
theorem Memory.mem_put {m : Memory} {a : Nat} {v : Byte} {x : Host.Cell} (h : x ∈ Memory.put m a v) :
    x = (a, v) ∨ x ∈ m := by
  induction m with
  | nil => simpa [Memory.put] using h
  | cons y rest ih =>
    obtain ⟨k, w⟩ := y
    simp only [Memory.put] at h
    split at h
    · simpa using h
    · split at h
      · simp only [List.mem_cons] at h ⊢
        tauto
      · simp only [List.mem_cons] at h ⊢
        rcases h with h | h
        · tauto
        · rcases ih h with h | h <;> tauto

/-- A write keeps the canonical form. -/
theorem Memory.wf_put {m : Memory} (h : Memory.wf m) (a : Nat) (v : Byte) : Memory.wf (Memory.put m a v) := by
  induction m with
  | nil => simp [Memory.put, Memory.wf]
  | cons x rest ih =>
    obtain ⟨k, w⟩ := x
    rw [Memory.wf, List.pairwise_cons] at h
    obtain ⟨hk, hr⟩ := h
    simp only [Memory.put]
    split
    · rename_i hlt
      rw [Memory.wf, List.pairwise_cons, List.pairwise_cons]
      refine ⟨fun y hy => ?_, hk, hr⟩
      rcases List.mem_cons.1 hy with rfl | hy
      · exact hlt
      · exact Nat.lt_trans hlt (hk y hy)
    · split
      · subst_vars
        exact List.pairwise_cons.2 ⟨hk, hr⟩
      · refine List.pairwise_cons.2 ⟨fun y hy => ?_, ih hr⟩
        rcases Memory.mem_put hy with rfl | hy
        · show k < a
          omega
        · exact hk y hy

/-- Read after write. -/
@[simp] theorem Block.byte_poke_same (b : Block) (a : Nat) (v : Byte) : (b.poke a v).byte a = v := by
  simp [Block.byte, Block.poke, Memory.find_put_same]

/-- A write leaves every other address alone. -/
theorem Block.byte_poke_other (b : Block) {a a' : Nat} (v : Byte) (h : a' ≠ a) :
    (b.poke a v).byte a' = b.byte a' := by
  simp [Block.byte, Block.poke, Memory.find_put_other _ _ h]

theorem Block.byte_poke (b : Block) (a a' : Nat) (v : Byte) :
    (b.poke a v).byte a' = if a' = a then v else b.byte a' := by
  split
  · subst_vars; simp
  · exact Block.byte_poke_other b v ‹_›

/-- A byte depends on the memory and the number of resets only. -/
theorem Block.byte_congr {b b' : Block} (hm : b'.mem = b.mem) (he : b'.epoch = b.epoch) (a : Nat) :
    b'.byte a = b.byte a := by
  simp [Block.byte, hm, he]

theorem Block.mem_poke_wf {b : Block} (h : Memory.wf b.mem) (a : Nat) (v : Byte) : Memory.wf (b.poke a v).mem :=
  Memory.wf_put h a v

theorem Block.mem_store_wf {b : Block} (h : Memory.wf b.mem) (a n : Nat) (v : Word) :
    Memory.wf (b.store a n v).mem := by
  unfold Block.store
  split
  · exact mem_poke_wf h _ _
  · exact mem_poke_wf (mem_poke_wf (mem_poke_wf (mem_poke_wf h _ _) _ _) _ _) _ _

/-- The bytes a store changes: the `n` from `a` on, for a store of one byte or four. -/
theorem Block.byte_store_other (b : Block) {a n a' : Nat} (v : Word) (hn : n = 1 ∨ n = 4) (h : a' < a ∨ a + n ≤ a') :
    (b.store a n v).byte a' = b.byte a' := by
  rcases hn with rfl | rfl
  · simp only [Block.store, if_true]
    exact byte_poke_other b _ (by omega)
  · simp only [Block.store, show (4 : Nat) ≠ 1 by decide, if_false]
    rw [byte_poke_other _ _ (by omega), byte_poke_other _ _ (by omega), byte_poke_other _ _ (by omega),
      byte_poke_other _ _ (by omega)]

/-- The memory right after reset is in the canonical form, whatever the parameters. -/
theorem resetWith_mem_wf (c : Config) : Memory.wf (State.resetWith c).blk.mem := List.Pairwise.nil

theorem reset_mem_wf : Memory.wf State.reset.blk.mem := resetWith_mem_wf _

end Sys2Proof.Machine
end

