-- ==== Sys2Proof/Laws/State.lean ====
section
/-!
SUPPORT. One lemma for each field and each named update of the block, and for each named update of the whole state, so that
no later proof unfolds a record update.
-/
namespace Sys2Proof.Machine

section Block
variable (b : Block)

@[simp] theorem Block.accept_ie : b.accept.ie = b.ie := rfl
@[simp] theorem Block.accept_busy : b.accept.busy = b.busy := rfl
@[simp] theorem Block.accept_done : b.accept.done = false := rfl
@[simp] theorem Block.accept_cmdOverrun : b.accept.cmdOverrun = b.cmdOverrun := rfl
@[simp] theorem Block.accept_err : b.accept.err = b.err := rfl
@[simp] theorem Block.accept_rxStatus : b.accept.rxStatus = b.rxStatus := rfl
@[simp] theorem Block.accept_rxReserved : b.accept.rxReserved = b.rxReserved := rfl
@[simp] theorem Block.accept_crc : b.accept.crc = b.crc := rfl
@[simp] theorem Block.accept_txLen : b.accept.txLen = b.txLen := rfl
@[simp] theorem Block.accept_txFrameLen : b.accept.txFrameLen = b.txFrameLen := rfl
@[simp] theorem Block.accept_rxLen : b.accept.rxLen = b.rxLen := rfl
@[simp] theorem Block.accept_rxBodyLen : b.accept.rxBodyLen = b.rxBodyLen := rfl
@[simp] theorem Block.accept_rxTrailer : b.accept.rxTrailer = b.rxTrailer := rfl
@[simp] theorem Block.accept_rxHeader : b.accept.rxHeader = b.rxHeader := rfl
@[simp] theorem Block.accept_rxFooter : b.accept.rxFooter = b.rxFooter := rfl
@[simp] theorem Block.accept_engState : b.accept.engState = b.engState := rfl
@[simp] theorem Block.accept_engTimeout : b.accept.engTimeout = b.engTimeout := rfl
@[simp] theorem Block.accept_uartDiv : b.accept.uartDiv = b.uartDiv := rfl
@[simp] theorem Block.accept_capturing : b.accept.capturing = b.capturing := rfl
@[simp] theorem Block.accept_txi : b.accept.txi = b.txi := rfl
@[simp] theorem Block.accept_rxn : b.accept.rxn = b.rxn := rfl
@[simp] theorem Block.accept_ovf : b.accept.ovf = b.ovf := rfl
@[simp] theorem Block.accept_idleTimer : b.accept.idleTimer = b.idleTimer := rfl
@[simp] theorem Block.accept_txLine : b.accept.txLine = b.txLine := rfl
@[simp] theorem Block.accept_mem : b.accept.mem = b.mem := rfl
@[simp] theorem Block.accept_epoch : b.accept.epoch = b.epoch := rfl

@[simp] theorem Block.complete_ie (code : ErrCode) : (b.complete code).ie = b.ie := rfl
@[simp] theorem Block.complete_busy (code : ErrCode) : (b.complete code).busy = b.busy := rfl
@[simp] theorem Block.complete_done (code : ErrCode) : (b.complete code).done = true := rfl
@[simp] theorem Block.complete_cmdOverrun (code : ErrCode) : (b.complete code).cmdOverrun = b.cmdOverrun := rfl
@[simp] theorem Block.complete_err (code : ErrCode) : (b.complete code).err = code := rfl
@[simp] theorem Block.complete_rxStatus (code : ErrCode) : (b.complete code).rxStatus = b.rxStatus := rfl
@[simp] theorem Block.complete_rxReserved (code : ErrCode) : (b.complete code).rxReserved = b.rxReserved := rfl
@[simp] theorem Block.complete_crc (code : ErrCode) : (b.complete code).crc = b.crc := rfl
@[simp] theorem Block.complete_txLen (code : ErrCode) : (b.complete code).txLen = b.txLen := rfl
@[simp] theorem Block.complete_txFrameLen (code : ErrCode) : (b.complete code).txFrameLen = b.txFrameLen := rfl
@[simp] theorem Block.complete_rxLen (code : ErrCode) : (b.complete code).rxLen = b.rxLen := rfl
@[simp] theorem Block.complete_rxBodyLen (code : ErrCode) : (b.complete code).rxBodyLen = b.rxBodyLen := rfl
@[simp] theorem Block.complete_rxTrailer (code : ErrCode) : (b.complete code).rxTrailer = b.rxTrailer := rfl
@[simp] theorem Block.complete_rxHeader (code : ErrCode) : (b.complete code).rxHeader = b.rxHeader := rfl
@[simp] theorem Block.complete_rxFooter (code : ErrCode) : (b.complete code).rxFooter = b.rxFooter := rfl
@[simp] theorem Block.complete_engState (code : ErrCode) : (b.complete code).engState = b.engState := rfl
@[simp] theorem Block.complete_engTimeout (code : ErrCode) : (b.complete code).engTimeout = b.engTimeout := rfl
@[simp] theorem Block.complete_uartDiv (code : ErrCode) : (b.complete code).uartDiv = b.uartDiv := rfl
@[simp] theorem Block.complete_capturing (code : ErrCode) : (b.complete code).capturing = b.capturing := rfl
@[simp] theorem Block.complete_txi (code : ErrCode) : (b.complete code).txi = b.txi := rfl
@[simp] theorem Block.complete_rxn (code : ErrCode) : (b.complete code).rxn = b.rxn := rfl
@[simp] theorem Block.complete_ovf (code : ErrCode) : (b.complete code).ovf = b.ovf := rfl
@[simp] theorem Block.complete_idleTimer (code : ErrCode) : (b.complete code).idleTimer = b.idleTimer := rfl
@[simp] theorem Block.complete_txLine (code : ErrCode) : (b.complete code).txLine = b.txLine := rfl
@[simp] theorem Block.complete_mem (code : ErrCode) : (b.complete code).mem = b.mem := rfl
@[simp] theorem Block.complete_epoch (code : ErrCode) : (b.complete code).epoch = b.epoch := rfl

@[simp] theorem Block.writeStatus_ie (v : Word) : (b.writeStatus v).ie = b.ie := rfl
@[simp] theorem Block.writeStatus_busy (v : Word) : (b.writeStatus v).busy = b.busy := rfl
@[simp] theorem Block.writeStatus_done (v : Word) : (b.writeStatus v).done = (b.done && !v.getLsbD 1) := rfl
@[simp] theorem Block.writeStatus_cmdOverrun (v : Word) : (b.writeStatus v).cmdOverrun = (b.cmdOverrun && !v.getLsbD 2) := rfl
@[simp] theorem Block.writeStatus_err (v : Word) : (b.writeStatus v).err = b.err := rfl
@[simp] theorem Block.writeStatus_rxStatus (v : Word) : (b.writeStatus v).rxStatus = b.rxStatus := rfl
@[simp] theorem Block.writeStatus_rxReserved (v : Word) : (b.writeStatus v).rxReserved = b.rxReserved := rfl
@[simp] theorem Block.writeStatus_crc (v : Word) : (b.writeStatus v).crc = b.crc := rfl
@[simp] theorem Block.writeStatus_txLen (v : Word) : (b.writeStatus v).txLen = b.txLen := rfl
@[simp] theorem Block.writeStatus_txFrameLen (v : Word) : (b.writeStatus v).txFrameLen = b.txFrameLen := rfl
@[simp] theorem Block.writeStatus_rxLen (v : Word) : (b.writeStatus v).rxLen = b.rxLen := rfl
@[simp] theorem Block.writeStatus_rxBodyLen (v : Word) : (b.writeStatus v).rxBodyLen = b.rxBodyLen := rfl
@[simp] theorem Block.writeStatus_rxTrailer (v : Word) : (b.writeStatus v).rxTrailer = b.rxTrailer := rfl
@[simp] theorem Block.writeStatus_rxHeader (v : Word) : (b.writeStatus v).rxHeader = b.rxHeader := rfl
@[simp] theorem Block.writeStatus_rxFooter (v : Word) : (b.writeStatus v).rxFooter = b.rxFooter := rfl
@[simp] theorem Block.writeStatus_engState (v : Word) : (b.writeStatus v).engState = b.engState := rfl
@[simp] theorem Block.writeStatus_engTimeout (v : Word) : (b.writeStatus v).engTimeout = b.engTimeout := rfl
@[simp] theorem Block.writeStatus_uartDiv (v : Word) : (b.writeStatus v).uartDiv = b.uartDiv := rfl
@[simp] theorem Block.writeStatus_capturing (v : Word) : (b.writeStatus v).capturing = b.capturing := rfl
@[simp] theorem Block.writeStatus_txi (v : Word) : (b.writeStatus v).txi = b.txi := rfl
@[simp] theorem Block.writeStatus_rxn (v : Word) : (b.writeStatus v).rxn = b.rxn := rfl
@[simp] theorem Block.writeStatus_ovf (v : Word) : (b.writeStatus v).ovf = b.ovf := rfl
@[simp] theorem Block.writeStatus_idleTimer (v : Word) : (b.writeStatus v).idleTimer = b.idleTimer := rfl
@[simp] theorem Block.writeStatus_txLine (v : Word) : (b.writeStatus v).txLine = b.txLine := rfl
@[simp] theorem Block.writeStatus_mem (v : Word) : (b.writeStatus v).mem = b.mem := rfl
@[simp] theorem Block.writeStatus_epoch (v : Word) : (b.writeStatus v).epoch = b.epoch := rfl

@[simp] theorem Block.poke_ie (a : Nat) (v : Byte) : (b.poke a v).ie = b.ie := rfl
@[simp] theorem Block.poke_busy (a : Nat) (v : Byte) : (b.poke a v).busy = b.busy := rfl
@[simp] theorem Block.poke_done (a : Nat) (v : Byte) : (b.poke a v).done = b.done := rfl
@[simp] theorem Block.poke_cmdOverrun (a : Nat) (v : Byte) : (b.poke a v).cmdOverrun = b.cmdOverrun := rfl
@[simp] theorem Block.poke_err (a : Nat) (v : Byte) : (b.poke a v).err = b.err := rfl
@[simp] theorem Block.poke_rxStatus (a : Nat) (v : Byte) : (b.poke a v).rxStatus = b.rxStatus := rfl
@[simp] theorem Block.poke_rxReserved (a : Nat) (v : Byte) : (b.poke a v).rxReserved = b.rxReserved := rfl
@[simp] theorem Block.poke_crc (a : Nat) (v : Byte) : (b.poke a v).crc = b.crc := rfl
@[simp] theorem Block.poke_txLen (a : Nat) (v : Byte) : (b.poke a v).txLen = b.txLen := rfl
@[simp] theorem Block.poke_txFrameLen (a : Nat) (v : Byte) : (b.poke a v).txFrameLen = b.txFrameLen := rfl
@[simp] theorem Block.poke_rxLen (a : Nat) (v : Byte) : (b.poke a v).rxLen = b.rxLen := rfl
@[simp] theorem Block.poke_rxBodyLen (a : Nat) (v : Byte) : (b.poke a v).rxBodyLen = b.rxBodyLen := rfl
@[simp] theorem Block.poke_rxTrailer (a : Nat) (v : Byte) : (b.poke a v).rxTrailer = b.rxTrailer := rfl
@[simp] theorem Block.poke_rxHeader (a : Nat) (v : Byte) : (b.poke a v).rxHeader = b.rxHeader := rfl
@[simp] theorem Block.poke_rxFooter (a : Nat) (v : Byte) : (b.poke a v).rxFooter = b.rxFooter := rfl
@[simp] theorem Block.poke_engState (a : Nat) (v : Byte) : (b.poke a v).engState = b.engState := rfl
@[simp] theorem Block.poke_engTimeout (a : Nat) (v : Byte) : (b.poke a v).engTimeout = b.engTimeout := rfl
@[simp] theorem Block.poke_uartDiv (a : Nat) (v : Byte) : (b.poke a v).uartDiv = b.uartDiv := rfl
@[simp] theorem Block.poke_capturing (a : Nat) (v : Byte) : (b.poke a v).capturing = b.capturing := rfl
@[simp] theorem Block.poke_txi (a : Nat) (v : Byte) : (b.poke a v).txi = b.txi := rfl
@[simp] theorem Block.poke_rxn (a : Nat) (v : Byte) : (b.poke a v).rxn = b.rxn := rfl
@[simp] theorem Block.poke_ovf (a : Nat) (v : Byte) : (b.poke a v).ovf = b.ovf := rfl
@[simp] theorem Block.poke_idleTimer (a : Nat) (v : Byte) : (b.poke a v).idleTimer = b.idleTimer := rfl
@[simp] theorem Block.poke_txLine (a : Nat) (v : Byte) : (b.poke a v).txLine = b.txLine := rfl
@[simp] theorem Block.poke_mem (a : Nat) (v : Byte) : (b.poke a v).mem = Memory.put b.mem a v := rfl
@[simp] theorem Block.poke_epoch (a : Nat) (v : Byte) : (b.poke a v).epoch = b.epoch := rfl

@[simp] theorem Block.dropFrame_ie : b.dropFrame.ie = b.ie := rfl
@[simp] theorem Block.dropFrame_busy : b.dropFrame.busy = b.busy := rfl
@[simp] theorem Block.dropFrame_done : b.dropFrame.done = b.done := rfl
@[simp] theorem Block.dropFrame_cmdOverrun : b.dropFrame.cmdOverrun = b.cmdOverrun := rfl
@[simp] theorem Block.dropFrame_err : b.dropFrame.err = b.err := rfl
@[simp] theorem Block.dropFrame_rxStatus : b.dropFrame.rxStatus = b.rxStatus := rfl
@[simp] theorem Block.dropFrame_rxReserved : b.dropFrame.rxReserved = b.rxReserved := rfl
@[simp] theorem Block.dropFrame_crc : b.dropFrame.crc = b.crc := rfl
@[simp] theorem Block.dropFrame_txLen : b.dropFrame.txLen = b.txLen := rfl
@[simp] theorem Block.dropFrame_txFrameLen : b.dropFrame.txFrameLen = 0 := rfl
@[simp] theorem Block.dropFrame_rxLen : b.dropFrame.rxLen = b.rxLen := rfl
@[simp] theorem Block.dropFrame_rxBodyLen : b.dropFrame.rxBodyLen = b.rxBodyLen := rfl
@[simp] theorem Block.dropFrame_rxTrailer : b.dropFrame.rxTrailer = b.rxTrailer := rfl
@[simp] theorem Block.dropFrame_rxHeader : b.dropFrame.rxHeader = b.rxHeader := rfl
@[simp] theorem Block.dropFrame_rxFooter : b.dropFrame.rxFooter = b.rxFooter := rfl
@[simp] theorem Block.dropFrame_engState : b.dropFrame.engState = b.engState := rfl
@[simp] theorem Block.dropFrame_engTimeout : b.dropFrame.engTimeout = b.engTimeout := rfl
@[simp] theorem Block.dropFrame_uartDiv : b.dropFrame.uartDiv = b.uartDiv := rfl
@[simp] theorem Block.dropFrame_capturing : b.dropFrame.capturing = b.capturing := rfl
@[simp] theorem Block.dropFrame_txi : b.dropFrame.txi = b.txi := rfl
@[simp] theorem Block.dropFrame_rxn : b.dropFrame.rxn = b.rxn := rfl
@[simp] theorem Block.dropFrame_ovf : b.dropFrame.ovf = b.ovf := rfl
@[simp] theorem Block.dropFrame_idleTimer : b.dropFrame.idleTimer = b.idleTimer := rfl
@[simp] theorem Block.dropFrame_txLine : b.dropFrame.txLine = b.txLine := rfl
@[simp] theorem Block.dropFrame_mem : b.dropFrame.mem = b.mem := rfl
@[simp] theorem Block.dropFrame_epoch : b.dropFrame.epoch = b.epoch := rfl

@[simp] theorem Block.appendChecksum_ie : b.appendChecksum.ie = b.ie := rfl
@[simp] theorem Block.appendChecksum_busy : b.appendChecksum.busy = b.busy := rfl
@[simp] theorem Block.appendChecksum_done : b.appendChecksum.done = b.done := rfl
@[simp] theorem Block.appendChecksum_cmdOverrun : b.appendChecksum.cmdOverrun = b.cmdOverrun := rfl
@[simp] theorem Block.appendChecksum_err : b.appendChecksum.err = b.err := rfl
@[simp] theorem Block.appendChecksum_rxStatus : b.appendChecksum.rxStatus = b.rxStatus := rfl
@[simp] theorem Block.appendChecksum_rxReserved : b.appendChecksum.rxReserved = b.rxReserved := rfl
@[simp] theorem Block.appendChecksum_crc : b.appendChecksum.crc = b.txChecksum := rfl
@[simp] theorem Block.appendChecksum_txLen : b.appendChecksum.txLen = b.txLen := rfl
@[simp] theorem Block.appendChecksum_txFrameLen : b.appendChecksum.txFrameLen = BitVec.ofNat 32 (b.txLen.toNat + 2) := rfl
@[simp] theorem Block.appendChecksum_rxLen : b.appendChecksum.rxLen = b.rxLen := rfl
@[simp] theorem Block.appendChecksum_rxBodyLen : b.appendChecksum.rxBodyLen = b.rxBodyLen := rfl
@[simp] theorem Block.appendChecksum_rxTrailer : b.appendChecksum.rxTrailer = b.rxTrailer := rfl
@[simp] theorem Block.appendChecksum_rxHeader : b.appendChecksum.rxHeader = b.rxHeader := rfl
@[simp] theorem Block.appendChecksum_rxFooter : b.appendChecksum.rxFooter = b.rxFooter := rfl
@[simp] theorem Block.appendChecksum_engState : b.appendChecksum.engState = b.engState := rfl
@[simp] theorem Block.appendChecksum_engTimeout : b.appendChecksum.engTimeout = b.engTimeout := rfl
@[simp] theorem Block.appendChecksum_uartDiv : b.appendChecksum.uartDiv = b.uartDiv := rfl
@[simp] theorem Block.appendChecksum_capturing : b.appendChecksum.capturing = b.capturing := rfl
@[simp] theorem Block.appendChecksum_txi : b.appendChecksum.txi = b.txi := rfl
@[simp] theorem Block.appendChecksum_rxn : b.appendChecksum.rxn = b.rxn := rfl
@[simp] theorem Block.appendChecksum_ovf : b.appendChecksum.ovf = b.ovf := rfl
@[simp] theorem Block.appendChecksum_idleTimer : b.appendChecksum.idleTimer = b.idleTimer := rfl
@[simp] theorem Block.appendChecksum_txLine : b.appendChecksum.txLine = b.txLine := rfl
@[simp] theorem Block.appendChecksum_epoch : b.appendChecksum.epoch = b.epoch := rfl

@[simp] theorem Block.clearExtraction_ie : b.clearExtraction.ie = b.ie := rfl
@[simp] theorem Block.clearExtraction_busy : b.clearExtraction.busy = b.busy := rfl
@[simp] theorem Block.clearExtraction_done : b.clearExtraction.done = b.done := rfl
@[simp] theorem Block.clearExtraction_cmdOverrun : b.clearExtraction.cmdOverrun = b.cmdOverrun := rfl
@[simp] theorem Block.clearExtraction_err : b.clearExtraction.err = b.err := rfl
@[simp] theorem Block.clearExtraction_rxStatus : b.clearExtraction.rxStatus = 0 := rfl
@[simp] theorem Block.clearExtraction_rxReserved : b.clearExtraction.rxReserved = 0 := rfl
@[simp] theorem Block.clearExtraction_crc : b.clearExtraction.crc = b.crc := rfl
@[simp] theorem Block.clearExtraction_txLen : b.clearExtraction.txLen = b.txLen := rfl
@[simp] theorem Block.clearExtraction_txFrameLen : b.clearExtraction.txFrameLen = b.txFrameLen := rfl
@[simp] theorem Block.clearExtraction_rxLen : b.clearExtraction.rxLen = b.rxLen := rfl
@[simp] theorem Block.clearExtraction_rxBodyLen : b.clearExtraction.rxBodyLen = 0 := rfl
@[simp] theorem Block.clearExtraction_rxTrailer : b.clearExtraction.rxTrailer = 0 := rfl
@[simp] theorem Block.clearExtraction_rxHeader : b.clearExtraction.rxHeader = 0 := rfl
@[simp] theorem Block.clearExtraction_rxFooter : b.clearExtraction.rxFooter = 0 := rfl
@[simp] theorem Block.clearExtraction_engState : b.clearExtraction.engState = b.engState := rfl
@[simp] theorem Block.clearExtraction_engTimeout : b.clearExtraction.engTimeout = b.engTimeout := rfl
@[simp] theorem Block.clearExtraction_uartDiv : b.clearExtraction.uartDiv = b.uartDiv := rfl
@[simp] theorem Block.clearExtraction_capturing : b.clearExtraction.capturing = b.capturing := rfl
@[simp] theorem Block.clearExtraction_txi : b.clearExtraction.txi = b.txi := rfl
@[simp] theorem Block.clearExtraction_rxn : b.clearExtraction.rxn = b.rxn := rfl
@[simp] theorem Block.clearExtraction_ovf : b.clearExtraction.ovf = b.ovf := rfl
@[simp] theorem Block.clearExtraction_idleTimer : b.clearExtraction.idleTimer = b.idleTimer := rfl
@[simp] theorem Block.clearExtraction_txLine : b.clearExtraction.txLine = b.txLine := rfl
@[simp] theorem Block.clearExtraction_mem : b.clearExtraction.mem = b.mem := rfl
@[simp] theorem Block.clearExtraction_epoch : b.clearExtraction.epoch = b.epoch := rfl

@[simp] theorem Block.extract_ie : b.extract.ie = b.ie := rfl
@[simp] theorem Block.extract_busy : b.extract.busy = b.busy := rfl
@[simp] theorem Block.extract_done : b.extract.done = b.done := rfl
@[simp] theorem Block.extract_cmdOverrun : b.extract.cmdOverrun = b.cmdOverrun := rfl
@[simp] theorem Block.extract_err : b.extract.err = b.err := rfl
@[simp] theorem Block.extract_rxStatus : b.extract.rxStatus = b.rxByte 3 := rfl
@[simp] theorem Block.extract_rxReserved : b.extract.rxReserved = b.rxByte 4 := rfl
@[simp] theorem Block.extract_crc : b.extract.crc = b.crc := rfl
@[simp] theorem Block.extract_txLen : b.extract.txLen = b.txLen := rfl
@[simp] theorem Block.extract_txFrameLen : b.extract.txFrameLen = b.txFrameLen := rfl
@[simp] theorem Block.extract_rxLen : b.extract.rxLen = b.rxLen := rfl
@[simp] theorem Block.extract_rxBodyLen : b.extract.rxBodyLen = BitVec.ofNat 32 (b.rxLen.toNat - 10) := rfl
@[simp] theorem Block.extract_rxTrailer : b.extract.rxTrailer = be16 (b.rxByte (b.rxLen.toNat - 5)) (b.rxByte (b.rxLen.toNat - 4)) := rfl
@[simp] theorem Block.extract_rxHeader : b.extract.rxHeader = be24 (b.rxByte 0) (b.rxByte 1) (b.rxByte 2) := rfl
@[simp] theorem Block.extract_rxFooter : b.extract.rxFooter = be24 (b.rxByte (b.rxLen.toNat - 3)) (b.rxByte (b.rxLen.toNat - 2)) (b.rxByte (b.rxLen.toNat - 1)) := rfl
@[simp] theorem Block.extract_engState : b.extract.engState = b.engState := rfl
@[simp] theorem Block.extract_engTimeout : b.extract.engTimeout = b.engTimeout := rfl
@[simp] theorem Block.extract_uartDiv : b.extract.uartDiv = b.uartDiv := rfl
@[simp] theorem Block.extract_capturing : b.extract.capturing = b.capturing := rfl
@[simp] theorem Block.extract_txi : b.extract.txi = b.txi := rfl
@[simp] theorem Block.extract_rxn : b.extract.rxn = b.rxn := rfl
@[simp] theorem Block.extract_ovf : b.extract.ovf = b.ovf := rfl
@[simp] theorem Block.extract_idleTimer : b.extract.idleTimer = b.idleTimer := rfl
@[simp] theorem Block.extract_txLine : b.extract.txLine = b.txLine := rfl
@[simp] theorem Block.extract_mem : b.extract.mem = b.mem := rfl
@[simp] theorem Block.extract_epoch : b.extract.epoch = b.epoch := rfl

@[simp] theorem Block.updateCrc_ie (v : Byte) : (b.updateCrc v).ie = b.ie := rfl
@[simp] theorem Block.updateCrc_busy (v : Byte) : (b.updateCrc v).busy = b.busy := rfl
@[simp] theorem Block.updateCrc_done (v : Byte) : (b.updateCrc v).done = b.done := rfl
@[simp] theorem Block.updateCrc_cmdOverrun (v : Byte) : (b.updateCrc v).cmdOverrun = b.cmdOverrun := rfl
@[simp] theorem Block.updateCrc_err (v : Byte) : (b.updateCrc v).err = b.err := rfl
@[simp] theorem Block.updateCrc_rxStatus (v : Byte) : (b.updateCrc v).rxStatus = b.rxStatus := rfl
@[simp] theorem Block.updateCrc_rxReserved (v : Byte) : (b.updateCrc v).rxReserved = b.rxReserved := rfl
@[simp] theorem Block.updateCrc_crc (v : Byte) : (b.updateCrc v).crc = crcStep b.crc v := rfl
@[simp] theorem Block.updateCrc_txLen (v : Byte) : (b.updateCrc v).txLen = b.txLen := rfl
@[simp] theorem Block.updateCrc_txFrameLen (v : Byte) : (b.updateCrc v).txFrameLen = b.txFrameLen := rfl
@[simp] theorem Block.updateCrc_rxLen (v : Byte) : (b.updateCrc v).rxLen = b.rxLen := rfl
@[simp] theorem Block.updateCrc_rxBodyLen (v : Byte) : (b.updateCrc v).rxBodyLen = b.rxBodyLen := rfl
@[simp] theorem Block.updateCrc_rxTrailer (v : Byte) : (b.updateCrc v).rxTrailer = b.rxTrailer := rfl
@[simp] theorem Block.updateCrc_rxHeader (v : Byte) : (b.updateCrc v).rxHeader = b.rxHeader := rfl
@[simp] theorem Block.updateCrc_rxFooter (v : Byte) : (b.updateCrc v).rxFooter = b.rxFooter := rfl
@[simp] theorem Block.updateCrc_engState (v : Byte) : (b.updateCrc v).engState = b.engState := rfl
@[simp] theorem Block.updateCrc_engTimeout (v : Byte) : (b.updateCrc v).engTimeout = b.engTimeout := rfl
@[simp] theorem Block.updateCrc_uartDiv (v : Byte) : (b.updateCrc v).uartDiv = b.uartDiv := rfl
@[simp] theorem Block.updateCrc_capturing (v : Byte) : (b.updateCrc v).capturing = b.capturing := rfl
@[simp] theorem Block.updateCrc_txi (v : Byte) : (b.updateCrc v).txi = b.txi := rfl
@[simp] theorem Block.updateCrc_rxn (v : Byte) : (b.updateCrc v).rxn = b.rxn := rfl
@[simp] theorem Block.updateCrc_ovf (v : Byte) : (b.updateCrc v).ovf = b.ovf := rfl
@[simp] theorem Block.updateCrc_idleTimer (v : Byte) : (b.updateCrc v).idleTimer = b.idleTimer := rfl
@[simp] theorem Block.updateCrc_txLine (v : Byte) : (b.updateCrc v).txLine = b.txLine := rfl
@[simp] theorem Block.updateCrc_mem (v : Byte) : (b.updateCrc v).mem = b.mem := rfl
@[simp] theorem Block.updateCrc_epoch (v : Byte) : (b.updateCrc v).epoch = b.epoch := rfl

@[simp] theorem Block.startExchange_ie : b.startExchange.ie = b.ie := rfl
@[simp] theorem Block.startExchange_busy : b.startExchange.busy = true := rfl
@[simp] theorem Block.startExchange_done : b.startExchange.done = b.done := rfl
@[simp] theorem Block.startExchange_cmdOverrun : b.startExchange.cmdOverrun = b.cmdOverrun := rfl
@[simp] theorem Block.startExchange_err : b.startExchange.err = b.err := rfl
@[simp] theorem Block.startExchange_rxStatus : b.startExchange.rxStatus = b.rxStatus := rfl
@[simp] theorem Block.startExchange_rxReserved : b.startExchange.rxReserved = b.rxReserved := rfl
@[simp] theorem Block.startExchange_crc : b.startExchange.crc = b.crc := rfl
@[simp] theorem Block.startExchange_txLen : b.startExchange.txLen = b.txLen := rfl
@[simp] theorem Block.startExchange_txFrameLen : b.startExchange.txFrameLen = b.txFrameLen := rfl
@[simp] theorem Block.startExchange_rxLen : b.startExchange.rxLen = b.rxLen := rfl
@[simp] theorem Block.startExchange_rxBodyLen : b.startExchange.rxBodyLen = b.rxBodyLen := rfl
@[simp] theorem Block.startExchange_rxTrailer : b.startExchange.rxTrailer = b.rxTrailer := rfl
@[simp] theorem Block.startExchange_rxHeader : b.startExchange.rxHeader = b.rxHeader := rfl
@[simp] theorem Block.startExchange_rxFooter : b.startExchange.rxFooter = b.rxFooter := rfl
@[simp] theorem Block.startExchange_engState : b.startExchange.engState = .frameSent := rfl
@[simp] theorem Block.startExchange_engTimeout : b.startExchange.engTimeout = b.engTimeout := rfl
@[simp] theorem Block.startExchange_uartDiv : b.startExchange.uartDiv = b.uartDiv := rfl
@[simp] theorem Block.startExchange_capturing : b.startExchange.capturing = true := rfl
@[simp] theorem Block.startExchange_txi : b.startExchange.txi = 0 := rfl
@[simp] theorem Block.startExchange_rxn : b.startExchange.rxn = 0 := rfl
@[simp] theorem Block.startExchange_ovf : b.startExchange.ovf = false := rfl
@[simp] theorem Block.startExchange_idleTimer : b.startExchange.idleTimer = .stopped := rfl
@[simp] theorem Block.startExchange_txLine : b.startExchange.txLine = b.txLine := rfl
@[simp] theorem Block.startExchange_mem : b.startExchange.mem = b.mem := rfl
@[simp] theorem Block.startExchange_epoch : b.startExchange.epoch = b.epoch := rfl

@[simp] theorem Block.stopCapture_ie : b.stopCapture.ie = b.ie := rfl
@[simp] theorem Block.stopCapture_busy : b.stopCapture.busy = b.busy := rfl
@[simp] theorem Block.stopCapture_done : b.stopCapture.done = b.done := rfl
@[simp] theorem Block.stopCapture_cmdOverrun : b.stopCapture.cmdOverrun = b.cmdOverrun := rfl
@[simp] theorem Block.stopCapture_err : b.stopCapture.err = b.err := rfl
@[simp] theorem Block.stopCapture_rxStatus : b.stopCapture.rxStatus = b.rxStatus := rfl
@[simp] theorem Block.stopCapture_rxReserved : b.stopCapture.rxReserved = b.rxReserved := rfl
@[simp] theorem Block.stopCapture_crc : b.stopCapture.crc = b.crc := rfl
@[simp] theorem Block.stopCapture_txLen : b.stopCapture.txLen = b.txLen := rfl
@[simp] theorem Block.stopCapture_txFrameLen : b.stopCapture.txFrameLen = b.txFrameLen := rfl
@[simp] theorem Block.stopCapture_rxLen : b.stopCapture.rxLen = BitVec.ofNat 32 b.rxn := rfl
@[simp] theorem Block.stopCapture_rxBodyLen : b.stopCapture.rxBodyLen = b.rxBodyLen := rfl
@[simp] theorem Block.stopCapture_rxTrailer : b.stopCapture.rxTrailer = b.rxTrailer := rfl
@[simp] theorem Block.stopCapture_rxHeader : b.stopCapture.rxHeader = b.rxHeader := rfl
@[simp] theorem Block.stopCapture_rxFooter : b.stopCapture.rxFooter = b.rxFooter := rfl
@[simp] theorem Block.stopCapture_engState : b.stopCapture.engState = b.engState := rfl
@[simp] theorem Block.stopCapture_engTimeout : b.stopCapture.engTimeout = b.engTimeout := rfl
@[simp] theorem Block.stopCapture_uartDiv : b.stopCapture.uartDiv = b.uartDiv := rfl
@[simp] theorem Block.stopCapture_capturing : b.stopCapture.capturing = false := rfl
@[simp] theorem Block.stopCapture_txi : b.stopCapture.txi = b.txi := rfl
@[simp] theorem Block.stopCapture_rxn : b.stopCapture.rxn = b.rxn := rfl
@[simp] theorem Block.stopCapture_ovf : b.stopCapture.ovf = b.ovf := rfl
@[simp] theorem Block.stopCapture_idleTimer : b.stopCapture.idleTimer = .stopped := rfl
@[simp] theorem Block.stopCapture_txLine : b.stopCapture.txLine = b.txLine := rfl
@[simp] theorem Block.stopCapture_mem : b.stopCapture.mem = b.mem := rfl
@[simp] theorem Block.stopCapture_epoch : b.stopCapture.epoch = b.epoch := rfl

end Block

section State
variable (s : State)

@[simp] theorem State.setBlk_blk (b : Block) : (s.setBlk b).blk = b := rfl
@[simp] theorem State.setBlk_cfg (b : Block) : (s.setBlk b).cfg = s.cfg := rfl
@[simp] theorem State.setBlk_host (b : Block) : (s.setBlk b).host = s.host := rfl
@[simp] theorem State.setBlk_env (b : Block) : (s.setBlk b).env = s.env := rfl

@[simp] theorem State.respond_blk (r : Response) : (s.respond r).blk = s.blk := rfl
@[simp] theorem State.respond_cfg (r : Response) : (s.respond r).cfg = s.cfg := rfl
@[simp] theorem State.respond_env (r : Response) : (s.respond r).env = s.env := rfl
@[simp] theorem State.respond_host (r : Response) : (s.respond r).host = { s.host with response := r } := rfl

@[simp] theorem State.busError_blk (a : Nat) : (s.busError a).blk = s.blk := rfl
@[simp] theorem State.busError_cfg (a : Nat) : (s.busError a).cfg = s.cfg := rfl
@[simp] theorem State.busError_env (a : Nat) : (s.busError a).env = s.env := rfl
@[simp] theorem State.busError_host (a : Nat) : (s.busError a).host = { s.host with response := .fault (.busError a) } := rfl

@[simp] theorem State.wrote_blk (b : Block) : (s.wrote b).blk = b := rfl
@[simp] theorem State.wrote_cfg (b : Block) : (s.wrote b).cfg = s.cfg := rfl
@[simp] theorem State.wrote_env (b : Block) : (s.wrote b).env = s.env := rfl
@[simp] theorem State.wrote_host (b : Block) : (s.wrote b).host = { s.host with response := .ok } := rfl

@[simp] theorem State.drew_blk : s.drew.blk = s.blk := rfl
@[simp] theorem State.drew_cfg : s.drew.cfg = s.cfg := rfl
@[simp] theorem State.drew_host : s.drew.host = s.host := rfl
@[simp] theorem State.drew_env : s.drew.env = { s.env with draws := s.env.draws + 1 } := rfl

@[simp] theorem State.send_blk (bytes : Bytes) : (s.send bytes).blk = s.blk := rfl
@[simp] theorem State.send_cfg (bytes : Bytes) : (s.send bytes).cfg = s.cfg := rfl
@[simp] theorem State.send_host (bytes : Bytes) : (s.send bytes).host = s.host := rfl
@[simp] theorem State.send_env (bytes : Bytes) : (s.send bytes).env = { s.env with lineOut := s.env.lineOut ++ bytes } := rfl

@[simp] theorem State.setTask_blk (t : Option Task) : (s.setTask t).blk = s.blk := rfl
@[simp] theorem State.setTask_cfg (t : Option Task) : (s.setTask t).cfg = s.cfg := rfl
@[simp] theorem State.setTask_env (t : Option Task) : (s.setTask t).env = s.env := rfl
@[simp] theorem State.setTask_host (t : Option Task) : (s.setTask t).host = { s.host with task := t } := rfl

@[simp] theorem State.finish_blk (r : HostResult) : (s.finish r).blk = s.blk := rfl
@[simp] theorem State.finish_cfg (r : HostResult) : (s.finish r).cfg = s.cfg := rfl
@[simp] theorem State.finish_env (r : HostResult) : (s.finish r).env = s.env := rfl
@[simp] theorem State.finish_host (r : HostResult) : (s.finish r).host = { s.host with task := none, result := some r } := rfl

/-- Taking the next event changes the inputs or the draw counter, nothing else. -/
@[simp] theorem State.advance_cfg : s.advance.cfg = s.cfg := by
  unfold State.advance; split <;> rfl

@[simp] theorem State.advance_blk : s.advance.blk = s.blk := by
  unfold State.advance; split <;> rfl

@[simp] theorem State.advance_host : s.advance.host = s.host := by
  unfold State.advance; split <;> rfl

end State

end Sys2Proof.Machine
end

