-- ==== Sys2Proof/Laws/Moves.lean ====
section
/-!
SUPPORT. What a step can do, said once: `Block.Move` lists every change a step can make to the block, with the condition
under which it makes it, and `step_move` says that a step makes one of them and keeps the parameters.
-/
namespace Sys2Proof.Machine

/-- Every change one step can make to a block with the parameters `c`. -/
inductive Block.Move (c : Config) (b : Block) : Block → Prop where
  | stay : Move c b b
  | enable (ie : Bool) : Move c b { b with ie := ie }
  | overrun (ie : Bool) : b.busy = true → Move c b { b with ie := ie, cmdOverrun := true }
  | crcInit (ie : Bool) : b.busy = false → Move c b (Machine.crcInit { b with ie := ie, done := false })
  | build (ie : Bool) : b.busy = false → Move c b (Machine.build c { b with ie := ie, done := false })
  | parse (ie : Bool) : b.busy = false → Move c b (Machine.parse c { b with ie := ie, done := false })
  | check (ie : Bool) : b.busy = false → Move c b (Machine.check c { b with ie := ie, done := false })
  | xchg (ie : Bool) : b.busy = false → Move c b (Machine.xchg c { b with ie := ie, done := false })
  | illegal (ie : Bool) : b.busy = false → Move c b (Machine.illegal { b with ie := ie, done := false })
  | crcUpdate (data : Byte) : b.busy = false → Move c b (b.updateCrc data)
  | status (v : Word) : Move c b (b.writeStatus v)
  | crc (v : Word) : b.busy = false → Move c b { b with crc := v.extractLsb' 0 16 }
  | txLen (v : Word) : b.busy = false → Move c b { b with txLen := v }
  | rxLen (v : Word) : b.busy = false → Move c b { b with rxLen := v }
  | timeout (v : Word) : b.busy = false → c.enginePresent = true → Move c b { b with engTimeout := warl v }
  | divisor (v : Word) : b.busy = false → c.enginePresent = true → Move c b { b with uartDiv := warl v }
  | store (a n : Nat) (v : Word) : b.busy = false → (n = 1 ∨ n = 4) → (∀ k < n, bufferAddress c (a + k)) →
      Move c b (b.store a n v)
  | transmit : b.canTransmit = true → Move c b b.transmit
  | receive (byte : Byte) : b.capturing = true → Move c b (b.receive c byte)
  | complete : b.canIdle = true → Move c b (finishExchange c b)
  | reset : Move c b (Block.reset c (b.epoch + 1))

/-- The parameters are kept and the block makes one move. -/
def moves (s t : State) : Prop := t.cfg = s.cfg ∧ Block.Move s.cfg s.blk t.blk

theorem moves_of_blk {s t : State} (hc : t.cfg = s.cfg) (hb : t.blk = s.blk) : moves s t :=
  ⟨hc, hb ▸ .stay⟩

/-- A command that is dropped or run (R35). -/
theorem issue_move {s : State} {ie : Bool} {cmd : Config → Block → Block}
    (h : s.blk.busy = false → Block.Move s.cfg s.blk (cmd s.cfg { s.blk with ie := ie, done := false })) :
    moves s (s.issue ie cmd) := by
  refine ⟨rfl, ?_⟩
  simp only [State.issue, State.wrote_blk]
  split
  · exact .overrun ie ‹_›
  · exact h (Bool.eq_false_iff.2 ‹_›)

/-- Starting or ending an operation of the host touches neither the parameters nor the block. -/
theorem startExchange_blk (k : TaskKind) (op : Byte) (p : Bytes) (s : State) :
    (startExchange k op p s).cfg = s.cfg ∧ (startExchange k op p s).blk = s.blk := ⟨rfl, rfl⟩

theorem sendChunk_blk (u : Session) (s : State) : (sendChunk u s).cfg = s.cfg ∧ (sendChunk u s).blk = s.blk := ⟨rfl, rfl⟩

theorem startUpload_blk (src : Option Bytes) (p : Bytes) (s : State) :
    (startUpload src p s).cfg = s.cfg ∧ (startUpload src p s).blk = s.blk := by
  unfold startUpload
  split
  · exact ⟨rfl, rfl⟩
  · split <;> exact ⟨rfl, rfl⟩

theorem startOp_blk (op : HostOp) (s : State) : (startOp op s).cfg = s.cfg ∧ (startOp op s).blk = s.blk := by
  unfold startOp
  simp only
  split <;> first
    | exact ⟨rfl, rfl⟩
    | (split <;> first
        | exact ⟨rfl, rfl⟩
        | exact startUpload_blk _ _ _)

theorem request_blk (op : HostOp) (s : State) : (request op s).cfg = s.cfg ∧ (request op s).blk = s.blk := by
  unfold request
  split
  · exact startOp_blk op s
  · exact ⟨rfl, rfl⟩

theorem exchangeOk_blk (k : TaskKind) (body : Bytes) (s : State) :
    (exchangeOk k body s).cfg = s.cfg ∧ (exchangeOk k body s).blk = s.blk := by
  unfold exchangeOk
  split <;> first
    | exact ⟨rfl, rfl⟩
    | (unfold chunkAcknowledged; split <;> first | exact ⟨rfl, rfl⟩ | (simp only; split <;> exact ⟨rfl, rfl⟩))

theorem exchangeEnded_blk (k : TaskKind) (r : Exchanged) (s : State) :
    (exchangeEnded k r s).cfg = s.cfg ∧ (exchangeEnded k r s).blk = s.blk := by
  unfold exchangeEnded
  split
  · exact exchangeOk_blk _ _ _
  · unfold exchangeError
    split <;> exact ⟨rfl, rfl⟩

/-- An instruction always answers a next state, and the block makes one move. -/
theorem exec_move (i : Instr) (s : State) : Answers (exec i s) (moves s) := by
  cases i with
  | nop ie => exact ⟨_, rfl, rfl, .enable ie⟩
  | crcInit ie => exact ⟨_, rfl, issue_move (.crcInit ie)⟩
  | build ie => exact ⟨_, rfl, issue_move (.build ie)⟩
  | parse ie => exact ⟨_, rfl, issue_move (.parse ie)⟩
  | check ie => exact ⟨_, rfl, issue_move (.check ie)⟩
  | xchg ie => exact ⟨_, rfl, issue_move (.xchg ie)⟩
  | reserved67 ie bit0 => exact ⟨_, rfl, issue_move (.illegal ie)⟩
  | reserved8F ie low => exact ⟨_, rfl, issue_move (.illegal ie)⟩
  | crcUpdate data =>
    refine ⟨_, rfl, ?_⟩
    split
    · exact moves_of_blk rfl rfl
    · exact ⟨rfl, .crcUpdate data (Bool.eq_false_iff.2 ‹_›)⟩
  | listDir p => exact ⟨_, rfl, moves_of_blk (request_blk _ s).1 (request_blk _ s).2⟩
  | download p => exact ⟨_, rfl, moves_of_blk (request_blk _ s).1 (request_blk _ s).2⟩
  | upload p flag chunk => exact ⟨_, rfl, moves_of_blk (request_blk _ s).1 (request_blk _ s).2⟩
  | remove p => exact ⟨_, rfl, moves_of_blk (request_blk _ s).1 (request_blk _ s).2⟩

/-- A read never changes the block or the parameters (R89). -/
theorem memRead_blk (a n : Nat) (s : State) : (memRead a n s).cfg = s.cfg ∧ (memRead a n s).blk = s.blk := by
  unfold memRead
  split
  · exact ⟨rfl, rfl⟩
  · split
    · split
      · exact ⟨rfl, rfl⟩
      · unfold csrRead
        split
        · exact ⟨rfl, rfl⟩
        · split <;> exact ⟨rfl, rfl⟩
    · unfold bufRead
      split
      · exact ⟨rfl, rfl⟩
      · split <;> exact ⟨rfl, rfl⟩
    · unfold bufRead
      split
      · exact ⟨rfl, rfl⟩
      · split <;> exact ⟨rfl, rfl⟩
    · exact ⟨rfl, rfl⟩

theorem unlessBusy_move {off : Nat} {b : Block} {s : State}
    (h : s.blk.busy = false → Block.Move s.cfg s.blk b) : moves s (unlessBusy off b s) := by
  unfold unlessBusy
  split
  · exact moves_of_blk rfl rfl
  · exact ⟨rfl, h (Bool.eq_false_iff.2 ‹_›)⟩

theorem csrWrite_move (off : Nat) (v : Word) (s : State) : moves s (csrWrite off v s) := by
  unfold csrWrite
  split
  · exact ⟨rfl, .status v⟩
  · exact unlessBusy_move (.crc v)
  · exact unlessBusy_move (.txLen v)
  · exact unlessBusy_move (.rxLen v)
  · split
    · exact unlessBusy_move fun h => .timeout v h ‹_›
    · exact moves_of_blk rfl rfl
  · split
    · exact unlessBusy_move fun h => .divisor v h ‹_›
    · exact moves_of_blk rfl rfl
  · exact moves_of_blk rfl rfl

theorem bufWrite_move {a n i size : Nat} {v : Word} {s : State} (hn : n = 1 ∨ n = 4)
    (h : i + n ≤ size → ∀ k < n, bufferAddress s.cfg (a + k)) : moves s (bufWrite a n i size v s) := by
  unfold bufWrite
  split
  · exact moves_of_blk rfl rfl
  · split
    · exact moves_of_blk rfl rfl
    · exact ⟨rfl, .store a n v (Bool.eq_false_iff.2 ‹_›) hn (h (by omega))⟩

theorem width_of_shape {a n : Nat} (h : ¬badShape a n = true) : (n = 1 ∨ n = 4) ∧ (n = 4 → a % 4 = 0) := by
  simp only [badShape, Bool.or_eq_true, Bool.and_eq_true, bne_iff_ne, beq_iff_eq] at h
  omega

theorem windowOf_tx {a i : Nat} (h : windowOf a = .tx i) : txBase ≤ a ∧ a ≤ 0x1FFF ∧ a = txBase + i := by
  unfold windowOf at h
  split_ifs at h
  simp only [Window.tx.injEq] at h
  omega

theorem windowOf_rx {a i : Nat} (h : windowOf a = .rx i) : rxBase ≤ a ∧ a ≤ 0x1FFFF ∧ a = rxBase + i := by
  unfold windowOf at h
  split_ifs at h
  simp only [Window.rx.injEq] at h
  omega

theorem memWrite_move (a n : Nat) (v : Word) (s : State) : moves s (memWrite a n v s) := by
  unfold memWrite
  split
  · exact moves_of_blk rfl rfl
  · have hn := (width_of_shape ‹_›).1
    split
    · split
      · exact moves_of_blk rfl rfl
      · exact csrWrite_move a v s
    · have := windowOf_tx ‹_›
      exact bufWrite_move hn fun _ k _ => .inl ⟨by omega, by omega⟩
    · have := windowOf_rx ‹_›
      exact bufWrite_move hn fun _ k _ => .inr ⟨by omega, by omega⟩
    · exact moves_of_blk rfl rfl

/-- One bus access always answers a next state, and the block makes one move. -/
theorem busAccess_move (a : Access) (s : State) : Answers (busAccess a s) (moves s) := by
  unfold busAccess
  split
  · exact exec_move _ s
  · refine ⟨_, rfl, ?_⟩
    unfold plainAccess
    split
    · exact moves_of_blk (memRead_blk _ _ s).1 (memRead_blk _ _ s).2
    · exact memWrite_move _ _ _ s

theorem moves_then {s t u : State} (h : moves s t) (hu : u.cfg = t.cfg ∧ u.blk = t.blk) : moves s u :=
  ⟨hu.1.trans h.1, hu.2 ▸ h.2⟩

theorem andThen_move {s : State} {o : Host.Outcome State Fault Refusal} {k : State → Host.Outcome State Fault Refusal}
    (ho : Answers o (moves s)) (hk : ∀ t, Answers (k t) fun u => u.cfg = t.cfg ∧ u.blk = t.blk) :
    Answers (andThen o k) (moves s) := by
  obtain ⟨t, rfl, ht⟩ := ho
  obtain ⟨u, hu, hb⟩ := hk t
  exact ⟨u, hu, moves_then ht hb⟩

theorem readThen_move {kind : TaskKind} {a : Access} {k : Word → State → State} {s : State}
    (hk : ∀ v t, (k v t).cfg = t.cfg ∧ (k v t).blk = t.blk) : Answers (readThen kind a k s) (moves s) := by
  refine andThen_move (busAccess_move a s) fun t => ?_
  split
  · exact ⟨_, rfl, hk _ _⟩
  · exact ⟨_, rfl, exchangeEnded_blk _ _ _⟩

theorem taskTurn_move (t : Task) (s : State) : Answers (taskTurn t s) (moves s) := by
  unfold taskTurn
  simp only
  split
  · exact ⟨_, rfl, moves_of_blk rfl rfl⟩
  · exact andThen_move (busAccess_move _ s) fun u => ⟨_, rfl, rfl, rfl⟩
  · exact readThen_move fun v u => by split <;> exact ⟨rfl, rfl⟩
  · refine ⟨_, rfl, ?_⟩
    split <;> exact moves_of_blk rfl rfl
  · refine readThen_move fun v u => ?_
    unfold statusRead
    simp only
    split
    · exact ⟨rfl, rfl⟩
    · split
      · exact ⟨rfl, rfl⟩
      · exact exchangeEnded_blk _ _ _
  · refine readThen_move fun v u => ?_
    split
    · exact exchangeEnded_blk _ _ _
    · exact ⟨rfl, rfl⟩
  · refine readThen_move fun v u => ?_
    split
    · exact exchangeEnded_blk _ _ _
    · exact ⟨rfl, rfl⟩
  · refine readThen_move fun v u => ?_
    split
    · exact ⟨rfl, rfl⟩
    · exact exchangeEnded_blk _ _ _
  · refine readThen_move fun v u => ?_
    split <;> exact ⟨rfl, rfl⟩
  · exact readThen_move fun v u => ⟨rfl, rfl⟩
  · exact ⟨_, rfl, moves_of_blk rfl rfl⟩
  · exact ⟨_, rfl, moves_of_blk rfl rfl⟩

theorem hostTurn_move (s : State) : Answers (hostTurn s) (moves s) := by
  unfold hostTurn
  split
  · exact taskTurn_move _ s
  · exact ⟨_, rfl, moves_of_blk (startOp_blk _ _).1 (startOp_blk _ _).2⟩
  · exact ⟨_, rfl, moves_of_blk rfl rfl⟩

theorem receive_move (b : Byte) (s : State) : moves s (receive b s) := by
  unfold receive
  split
  · exact ⟨rfl, .receive b ‹_›⟩
  · exact moves_of_blk rfl rfl

theorem lineByte_move (b : Byte) (s : State) : moves s (lineByte b s) := by
  unfold lineByte
  split
  · exact moves_of_blk rfl rfl
  · exact receive_move b s

theorem lineQuiet_move (s : State) : moves s (lineQuiet s) := by
  unfold lineQuiet
  split
  · exact moves_of_blk (exchangeEnded_blk _ _ _).1 (exchangeEnded_blk _ _ _).2
  · exact moves_of_blk rfl rfl
  · unfold lineIdle
    split
    · exact ⟨rfl, .complete ‹_›⟩
    · exact moves_of_blk rfl rfl

/-- The one refusal of this model: bytes that are no command frame (R120). -/
theorem runPacket_move {p : Packet} {s t : State} (h : runPacket p s = .next t) : moves s t := by
  unfold runPacket at h
  split at h
  · obtain ⟨u, hu, hm⟩ := busAccess_move ‹_› s
    rw [hu] at h
    cases h
    exact hm
  · split at h
    · obtain ⟨u, hu, hm⟩ := exec_move ‹_› s
      rw [hu] at h
      cases h
      exact hm
    · split at h
      · cases h
        exact moves_of_blk (request_blk _ s).1 (request_blk _ s).2
      · cases h

/-- The effect of an event on the block. -/
theorem runEvent_move {e : Event} {s t : State} (h : runEvent e s = .next t) : moves s t := by
  cases e with
  | transaction p => exact runPacket_move h
  | platformAccess a =>
    have h : platformAccess a s = .next t := h
    unfold platformAccess at h
    split at h
    · obtain ⟨u, hu, hm⟩ := busAccess_move { a with off := ‹Nat› } s
      rw [hu] at h
      cases h
      exact hm
    · cases h
      exact moves_of_blk rfl rfl
  | request op =>
    cases h
    exact moves_of_blk (request_blk _ s).1 (request_blk _ s).2
  | hostTurn =>
    obtain ⟨u, hu, hm⟩ := hostTurn_move s
    rw [show runEvent .hostTurn s = hostTurn s from rfl, hu] at h
    cases h
    exact hm
  | hostStop =>
    cases h
    exact moves_of_blk rfl rfl
  | engineTx =>
    cases h
    unfold engineTx
    split
    · exact ⟨rfl, .transmit ‹_›⟩
    · exact moves_of_blk rfl rfl
  | lineByte b =>
    cases h
    exact lineByte_move b s
  | lineChar c =>
    cases h
    unfold lineChar
    split
    · exact lineByte_move _ s
    · exact moves_of_blk rfl rfl
  | lineIdle =>
    cases h
    exact lineQuiet_move s
  | reset =>
    cases h
    exact ⟨rfl, .reset⟩

/-- What a step can do: it keeps the parameters and the block makes one move. -/
theorem step_move {s t : State} (h : step s = .next t) : moves s t := by
  have hm := runEvent_move h
  simpa [moves] using hm

end Sys2Proof.Machine
end

