-- ==== Sys2Proof/Laws/Ops.lean ====
section
/-!
SUPPORT. For each shared operation, the lemma that says what it does, so that no later proof unfolds it: the command
write, the buffer slices, the checks and fields of a response, the bus, the byte-sequence helpers and the wire frames.
-/
namespace Sys2Proof.Machine

/-- A command that is accepted runs on a block whose IE is the write's and whose DONE is cleared (R35, R37). -/
theorem issue_free {s : State} (h : s.blk.busy = false) (ie : Bool) (cmd : Config → Block → Block) :
    s.issue ie cmd = s.wrote (cmd s.cfg { s.blk with ie := ie, done := false }) := by
  simp only [State.issue]
  rw [if_neg (show ¬s.blk.busy = true by simp [h])]
  rfl

/-- A command that is dropped only writes IE and sets CMD_OVERRUN (R305). -/
theorem issue_busy {s : State} (h : s.blk.busy = true) (ie : Bool) (cmd : Config → Block → Block) :
    s.issue ie cmd = s.wrote { s.blk with ie := ie, cmdOverrun := true } := by
  simp only [State.issue]
  rw [if_pos (show s.blk.busy = true from h)]

/-! ### The buffers -/

theorem txBytes_eq (b : Block) (n : Nat) : b.txBytes n = b.txFrom 0 n := by simp [Block.txBytes, Block.txFrom]

theorem rxBytes_eq (b : Block) (n : Nat) : b.rxBytes n = b.rxFrom 0 n := by simp [Block.rxBytes, Block.rxFrom]

@[simp] theorem txFrom_length (b : Block) (a n : Nat) : (b.txFrom a n).length = n := by simp [Block.txFrom]

@[simp] theorem rxFrom_length (b : Block) (a n : Nat) : (b.rxFrom a n).length = n := by simp [Block.rxFrom]

theorem txFrom_snoc (b : Block) (a n : Nat) : b.txFrom a (n + 1) = b.txFrom a n ++ [b.txByte (a + n)] := by
  simp [Block.txFrom, List.range_succ]

theorem rxFrom_snoc (b : Block) (a n : Nat) : b.rxFrom a (n + 1) = b.rxFrom a n ++ [b.rxByte (a + n)] := by
  simp [Block.rxFrom, List.range_succ]

theorem txFrom_cons (b : Block) (a n : Nat) : b.txFrom a (n + 1) = b.txByte a :: b.txFrom (a + 1) n := by
  simp only [Block.txFrom, List.range_succ_eq_map, List.map_cons, List.map_map, Nat.add_zero, List.cons.injEq, true_and]
  exact List.map_congr_left fun k _ => congrArg b.txByte (by simp; omega)

theorem rxFrom_cons (b : Block) (a n : Nat) : b.rxFrom a (n + 1) = b.rxByte a :: b.rxFrom (a + 1) n := by
  simp only [Block.rxFrom, List.range_succ_eq_map, List.map_cons, List.map_map, Nat.add_zero, List.cons.injEq, true_and]
  exact List.map_congr_left fun k _ => congrArg b.rxByte (by simp; omega)

theorem txFrom_congr {b b' : Block} {a n : Nat} (h : ∀ i, a ≤ i → i < a + n → b.txByte i = b'.txByte i) :
    b.txFrom a n = b'.txFrom a n := by
  refine List.map_congr_left fun i hi => h _ ?_ ?_ <;> simp only [List.mem_range] at hi <;> omega

theorem rxFrom_congr {b b' : Block} {a n : Nat} (h : ∀ i, a ≤ i → i < a + n → b.rxByte i = b'.rxByte i) :
    b.rxFrom a n = b'.rxFrom a n := by
  refine List.map_congr_left fun i hi => h _ ?_ ?_ <;> simp only [List.mem_range] at hi <;> omega

theorem rxFrom_slice (b : Block) {a k n : Nat} (h : a + k ≤ n) :
    b.rxFrom a k = ((b.rxFrom 0 n).drop a).take k := by
  apply List.ext_getElem
  · simp [Block.rxFrom]; omega
  · intro i h1 h2; simp [Block.rxFrom]

/-- A successful BUILD's two bytes, and every other byte as before (R174). -/
theorem byte_appendChecksum (b : Block) (a : Nat) : b.appendChecksum.byte a =
    if a = txBase + b.txLen.toNat + 1 then lo8 b.txChecksum
    else if a = txBase + b.txLen.toNat then hi8 b.txChecksum else b.byte a := by
  show ((b.poke (txBase + b.txLen.toNat) (hi8 b.txChecksum)).poke (txBase + b.txLen.toNat + 1)
    (lo8 b.txChecksum)).byte a = _
  rw [Block.byte_poke, Block.byte_poke]

/-! ### A response's checks -/

theorem headerOk_iff (b : Block) : b.headerOk = true ↔ b.rxFrom 0 3 = [0xAA, 0xAB, 0xAA] := by
  rw [show b.rxFrom 0 3 = [b.rxByte 0, b.rxByte 1, b.rxByte 2] by simp [Block.rxFrom, List.range_succ],
    Block.headerOk, beq_iff_eq, header]

theorem footerOk_iff (b : Block) {L : Nat} (h : 6 ≤ L) : b.footerOk L = true ↔ b.rxFrom (L - 3) 3 = [0xAB, 0xCC, 0xAB] := by
  have h1 : L - 3 + 1 = L - 2 := by omega
  have h2 : L - 3 + 2 = L - 1 := by omega
  rw [show b.rxFrom (L - 3) 3 = [b.rxByte (L - 3), b.rxByte (L - 2), b.rxByte (L - 1)] by
    simp [Block.rxFrom, List.range_succ, h1, h2], Block.footerOk, beq_iff_eq, footer]

/-- Field extraction needs at least 10 bytes and both markers (R195). -/
theorem extracts_parseCode {c : Config} {b : Block} (h : (parseCode c b).extracts = true) :
    10 ≤ b.rxLen.toNat ∧ b.headerOk = true ∧ b.footerOk b.rxLen.toNat = true := by
  simp only [parseCode] at h
  split at h
  · cases h
  split at h
  · cases h
  split at h
  · cases h
  split at h
  · cases h
  split at h
  · cases h
  simp_all

/-- The markers, once extracted, are the constants (R48). -/
theorem extract_markers {b : Block} (hh : b.headerOk = true) (hf : b.footerOk b.rxLen.toNat = true) :
    b.extract.rxHeader = 0xAAABAA ∧ b.extract.rxFooter = 0xABCCAB := by
  simp only [Block.headerOk, beq_iff_eq, header, List.cons.injEq] at hh
  simp only [Block.footerOk, beq_iff_eq, footer, List.cons.injEq] at hf
  constructor
  · simp only [Block.extract, hh]; rfl
  · simp only [Block.extract, hf]; rfl

/-! ### The bus -/

@[simp] theorem respond_response (r : Response) (s : State) : (s.respond r).host.response = r := rfl

@[simp] theorem wrote_response (b : Block) (s : State) : (s.wrote b).host.response = .ok := rfl

@[simp] theorem busError_response (a : Nat) (s : State) : (s.busError a).host.response = .fault (.busError a) := rfl

/-- A read is never an instruction. -/
theorem busAccess_read (size off : Nat) (v : Word) (s : State) :
    busAccess ⟨.R, size, off, v⟩ s = .next (memRead off size s) := rfl

/-- A 32-bit write to CTRL is its command (R110). -/
theorem busAccess_ctrl (v : Word) (s : State) : busAccess ⟨.W, 4, 0x00, v⟩ s = exec (decodeCtrl v) s := by
  simp [busAccess, decodeAccess, ctrlOffset]

/-- A 32-bit write to CRC_DATA is CRC_UPDATE (R112). -/
theorem busAccess_crcData (v : Word) (s : State) : busAccess ⟨.W, 4, 0x18, v⟩ s = exec (.crcUpdate (lane v 0)) s := by
  simp [busAccess, decodeAccess, ctrlOffset, crcDataOffset]

/-- Every other write is a plain access. -/
theorem busAccess_write {size off : Nat} (v : Word) (s : State) (h : ¬(size = 4 ∧ (off = 0x00 ∨ off = 0x18))) :
    busAccess ⟨.W, size, off, v⟩ s = .next (memWrite off size v s) := by
  have hd : ∃ e, decodeAccess ⟨.W, size, off, v⟩ = .error e := by
    by_cases hs : size = 4
    · simp only [hs, true_and, not_or] at h
      simp [decodeAccess, ctrlOffset, crcDataOffset, hs, h.1, h.2]
    · simp [decodeAccess, hs]
  obtain ⟨e, he⟩ := hd
  simp [busAccess, he, plainAccess]

theorem runPacket_decode {p : Packet} {i : Instr} (h : decode p = .ok i) (s : State) : runPacket p s = exec i s := by
  cases p with
  | bus a =>
    simp only [decode] at h
    simp [runPacket, busAccess, h]
  | frame b =>
    simp only [decode] at h
    simp [runPacket, h]

/-! ### Byte sequences -/

/-- `containsSeq` finds a run of bytes anywhere (R273). -/
theorem containsSeq_iff (sub body : Bytes) : containsSeq sub body = true ↔ ∃ x y, body = x ++ sub ++ y := by
  induction body with
  | nil => simp [containsSeq, List.isEmpty_iff]
  | cons b r ih =>
    simp only [containsSeq, Bool.or_eq_true, ih, List.isPrefixOf_iff_prefix]
    constructor
    · rintro (⟨y, h⟩ | ⟨x, y, h⟩)
      · exact ⟨[], y, by simp [h]⟩
      · exact ⟨b :: x, y, by simp [h]⟩
    · rintro ⟨x, y, h⟩
      cases x with
      | nil => exact .inl ⟨y, by simpa using h.symm⟩
      | cons c x =>
        simp only [List.cons_append, List.cons.injEq] at h
        exact .inr ⟨x, y, h.2⟩

/-- No segment holds the separator. -/
theorem splitAt_noSep (sep : Byte) (x : Bytes) : ∀ seg ∈ splitAt sep x, sep ∉ seg := by
  induction x with
  | nil => simp [splitAt]
  | cons b r ih =>
    simp only [splitAt]
    split
    · simpa using ih
    · rename_i hb
      split
      · simpa using fun h => hb h.symm
      · rename_i h
        rw [h] at ih
        simp only [List.mem_cons, forall_eq_or_imp, not_or] at ih ⊢
        exact ⟨⟨fun h => hb h.symm, ih.1⟩, ih.2⟩

/-- The segments are those of the library's split at one element (R268). -/
theorem splitAt_eq_splitOn (sep : Byte) (x : Bytes) : splitAt sep x = x.splitOn sep := by
  induction x with
  | nil => simp [splitAt]
  | cons b r ih =>
    have hne : r.splitOn sep ≠ [] := List.splitOnP_ne_nil _ r
    simp only [splitAt, List.splitOn, List.splitOnP_cons_eq_if_modifyHead, beq_iff_eq] at *
    split
    · simp [ih]
    · rw [ih]
      cases h : List.splitOnP (fun y => y == sep) r with
      | nil => exact absurd h hne
      | cons => rfl

theorem splitAt_noSep_append (sep : Byte) {g : Bytes} (r : Bytes) (h : sep ∉ g) :
    splitAt sep (g ++ sep :: r) = g :: splitAt sep r := by
  induction g with
  | nil => simp [splitAt]
  | cons b g ih =>
    simp only [List.mem_cons, not_or] at h
    simp [splitAt, Ne.symm h.1, ih h.2]

/-! ### The host's length writes -/

@[simp] theorem lengthWord_toNat (n : Nat) : (lengthWord n).toNat = min n 0xFFFFFFFF := by
  simp only [lengthWord, BitVec.toNat_ofNat]
  omega

/-- A count that fits is written as it is (R265). -/
theorem lengthWord_of_lt {n : Nat} (h : n < 2 ^ 32) : lengthWord n = BitVec.ofNat 32 n := by
  rw [lengthWord, Nat.min_eq_left (by omega)]

/-- A payload passes BUILD's check exactly when its frame fits TXBUF, however long it is (R170, R280). -/
theorem txLengthOk_lengthWord {c : Config} {b : Block} (n : Nat) (hc : c.Legal) (h : b.txLen = lengthWord (1 + n)) :
    txLengthOk c b = true ↔ n + 3 ≤ c.txbufSize := by
  have := hc.2.1
  simp only [txLengthOk, h, lengthWord_toNat, Bool.and_eq_true, decide_eq_true_eq]
  omega

/-- A response loaded by hand whose bytes do not fit RXBUF fails PARSE with RX_LENGTH, however long it is (R281). -/
theorem parseCode_lengthWord {c : Config} {b : Block} {n : Nat} (hc : c.Legal) (h : b.rxLen = lengthWord n)
    (hn : c.rxbufSize < n) : parseCode c b = .rxLength := by
  have := hc.2.2.2.1
  simp only [parseCode, h, lengthWord_toNat]
  rw [if_pos (by omega)]

/-! ### Wire frames and characters -/

theorem be16_halves (c : Half) : be16 (hi8 c) (lo8 c) = c := by
  apply BitVec.eq_of_getLsbD_eq
  intro k hk
  simp only [be16, hi8, lo8, BitVec.getLsbD_append, BitVec.getLsbD_extractLsb']
  split
  · simp_all
  · have : 8 + (k - 8) = k := by omega
    simp only [this]
    have : decide (k - 8 < 8) = true := by simp; omega
    simp [this]

/-- A frame's opcode and payload come back from its bytes (R120, R169). -/
theorem frameParts_encodeFrame (op : Byte) (p : Bytes) : frameParts (encodeFrame op p) = some (op, p) := by
  simp [encodeFrame, frameParts, crcBytes]

/-- A path without 0x00 comes back from an Upload payload (R129). -/
theorem splitUpload_payload {p : Bytes} (f : Byte) (c : Bytes) (h : p.all (· != 0x00#8) = true) :
    splitUpload (uploadPayload p f c) = some (p, f, c) := by
  induction p with
  | nil => simp [uploadPayload, splitUpload]
  | cons b r ih =>
    simp only [List.all_cons, Bool.and_eq_true, bne_iff_ne] at h
    have := ih h.2
    simp only [uploadPayload] at this
    simp [uploadPayload, splitUpload, h.1, this]

/-- A character ends with a high stop bit (R223). -/
theorem uartChar_stop (b : Byte) : (uartChar b).getLsbD 9 = true := by
  revert b
  decide

end Sys2Proof.Machine
end

