-- ==== Sys2Proof/Certificates/Slice0/Obligations.lean ====
section
/-!
DEFINITION. The statements for the provers, from the spec's numbered rules. `Answers o P` says that the outcome `o` IS a next
state, and that it satisfies `P`. `play es s` is the events `es` from `s` on, one step each.
-/
namespace Sys2Proof.Claims
open Sys2Proof.Machine

/-- The command bodies of R110's table, by CMD code. -/
def commandBody (code : Nat) (c : Config) (b : Block) : Block :=
  match code with
  | 0x1 => crcInit b
  | 0x2 => build c b
  | 0x3 => parse c b
  | 0x4 => check c b
  | 0x5 => xchg c b
  | _ => illegal b

/-- The block `s` has when a command written with the interrupt enable `ie` is accepted (R35, R37). -/
def accepted (s : State) (ie : Bool) : Block := { s.blk with ie := ie, done := false }

/-- The bytes the exchange events of one response deliver, then silence (R227, R228). -/
def deviceAnswers (response : Bytes) : List Event := response.map .lineByte ++ [.lineIdle]

/-- An uninterrupted run of one Exchange (R265): the host's writes, the transmission of the whole frame, the device's
response, and the host's poll (or its look at irq) and reads, one event each. -/
def exchangeEvents (payload response body : Bytes) : List Event :=
  List.replicate (payload.length + 4) .hostTurn ++ List.replicate (payload.length + 3) .engineTx ++
    deviceAnswers response ++ List.replicate (body.length + 3) .hostTurn

/-- The same without the engine (R281): the host's writes and BUILD, its reads of ERR, of TX_FRAME_LEN and of the frame, the
device's response on the host's own transport, the host's writes of the response, a byte each (assumption 29), and PARSE, and
its reads. -/
def exchangeEventsNoEngine (payload response body : Bytes) : List Event :=
  List.replicate (payload.length + 3 + 2 + (payload.length + 3)) .hostTurn ++ deviceAnswers response ++
    List.replicate (response.length + 2 + 2 + body.length) .hostTurn

/-- A host that is free to take up an operation and has an idle block with the engine before it. It may wait for its
exchanges in either way of R265, by polling or for irq. -/
def ready (s : State) : Prop :=
  s.cfg.Legal ∧ s.cfg.enginePresent = true ∧ s.blk.busy = false ∧ s.host.free = true

/-- The host runs its exchange of `op` and `payload` for `kind`, from its first access. -/
def exchanging (s : State) (kind : TaskKind) (op : Byte) (payload : Bytes) : Prop :=
  s.host.task = some ⟨kind, exchangeStart s.cfg s.host.useIrq op payload⟩

/-- From `s` to `t` the block, the parameters and the environment stay as they are: only the host program moves. -/
def onlyHost (s t : State) : Prop := t.blk = s.blk ∧ sameOutside s t

/-- In `t` the operation that ran in `s` for `kind` has failed with `e` (R266, R275): no exchange runs for it any more, and
the block and the line are as they were. An Upload also says how many bytes were acknowledged (R274). -/
def failedWith (kind : TaskKind) (e : HostError) (s t : State) : Prop :=
  t.host.task = none ∧ onlyHost s t ∧ t.host.result = some (match kind with
    | .upload u => .uploadFailed e u.bytesSent
    | .listDir | .download _ | .remove | .raw | .boot => .failed e)

/-- An Upload's first chunk and what is left, its session at its start: `data` goes to the path `p` (R271, R277). -/
def firstChunk (p data : Bytes) : Session := ⟨p, true, 0, data.take 256, data.drop 256, data.length⟩

/-- A session whose bytes acknowledged, chunk on its way and bytes still to send make up the source (R271, R274). -/
def accounts (u : Session) : Prop := u.bytesSent + u.chunk.length + u.rest.length = u.total

/-- The base address and the size of either buffer (R80). -/
def bufferWindow (c : Config) (base size : Nat) : Prop :=
  (base = 0x01000 ∧ size = c.txbufSize) ∨ (base = 0x10000 ∧ size = c.rxbufSize)

/-- The byte an access feeds to the checksum unit, where it is a CRC_UPDATE (R112). -/
def crcByte (a : Access) : Option Byte :=
  if a.dir = .W ∧ a.size = 4 ∧ a.off = 0x18 then some (a.data.extractLsb' 0 8) else none

end Sys2Proof.Claims

open Sys2Proof Sys2Proof.Machine Sys2Proof.Claims

/-! ### Encoding -/

/-- Decode and encode agree on every well-formed instruction, whatever its operands (30_encoding.md). -/
def Obligations.DecodeOfEncode : Prop := ∀ i : Instr, i.wf = true → decode (encode i) = .ok i

/-- R111: the CTRL word. Bits [3:0] say which command is issued, bit [8] is IE, and no other bit counts: encoding the
instruction that a CTRL write of `v` decodes to gives `v` back with every other bit 0. -/
def Obligations.CtrlWordIgnoresReservedBits : Prop :=
  ∀ (v : Word) (ie : Bool), decodeAccess ⟨.W, 4, 0x00, v⟩ = .ok (decodeCtrl v) ∧
    encode (decodeCtrl v) = .bus ⟨.W, 4, 0x00, v &&& 0x10F#32⟩ ∧
    (decodeCtrl v = .nop ie ↔ v.extractLsb' 0 4 = 0x0 ∧ v.getLsbD 8 = ie) ∧
    (decodeCtrl v = .crcInit ie ↔ v.extractLsb' 0 4 = 0x1 ∧ v.getLsbD 8 = ie) ∧
    (decodeCtrl v = .build ie ↔ v.extractLsb' 0 4 = 0x2 ∧ v.getLsbD 8 = ie) ∧
    (decodeCtrl v = .parse ie ↔ v.extractLsb' 0 4 = 0x3 ∧ v.getLsbD 8 = ie) ∧
    (decodeCtrl v = .check ie ↔ v.extractLsb' 0 4 = 0x4 ∧ v.getLsbD 8 = ie) ∧
    (decodeCtrl v = .xchg ie ↔ v.extractLsb' 0 4 = 0x5 ∧ v.getLsbD 8 = ie)

/-- Words written out from the encodings of R111, R112, R120 and R129 decode to the instructions they stand for. -/
def Obligations.SpecWordsDecode : Prop :=
  decode (.bus ⟨.W, 4, 0x00000, 0x00000002⟩) = .ok (.build false) ∧
  decode (.bus ⟨.W, 4, 0x00000, 0x00000105⟩) = .ok (.xchg true) ∧
  decode (.bus ⟨.W, 4, 0x00000, 0xFFFFFFF2⟩) = .ok (.build true) ∧
  decode (.bus ⟨.W, 4, 0x00000, 0x0000000F⟩) = .ok (.reserved8F false 0b111) ∧
  decode (.bus ⟨.W, 4, 0x00018, 0xFFFFFF31⟩) = .ok (.crcUpdate 0x31) ∧
  decode (.frame [0x03, 0x2F, 0x66, 0x6C, 0x61, 0x73, 0x68, 0xC7, 0x4F]) =
    .ok (.listDir [0x2F, 0x66, 0x6C, 0x61, 0x73, 0x68]) ∧
  decode (.frame [0x06, 0x2F, 0x66, 0x6C, 0x61, 0x73, 0x68, 0x2F, 0x61, 0x2E, 0x74, 0x78, 0x74, 0x00, 0x01, 0x68, 0x69,
      0x86, 0x70]) =
    .ok (.upload [0x2F, 0x66, 0x6C, 0x61, 0x73, 0x68, 0x2F, 0x61, 0x2E, 0x74, 0x78, 0x74] 0x01 [0x68, 0x69])

/-! ### Steps -/

/-- A step runs the decoded instruction: when the next input is a packet that decodes to `i`, the step is `exec i` on the
state with that input taken. -/
def Obligations.StepRunsDecodedInstruction : Prop :=
  ∀ (s : State) (p : Packet) (rest : List Event) (i : Instr),
    s.env.inputs = .transaction p :: rest → decode p = .ok i →
    step s = exec i { s with env := { s.env with inputs := rest } }

/-- One step takes one event (R326), and what the agents do does not depend on the events still to come: the steps over a
list of inputs are the events of the list, one after another. -/
def Obligations.StepsPlayInputs : Prop :=
  ∀ (es rest : List Event) (s t : State),
    play es s = .next t → run es.length (s.withInputs (es ++ rest)) = .next (t.withInputs rest)

/-! ### The checksum unit -/

/-- R151, R155, R156: how crc16 grows by a byte and by a sequence, and the source's four vectors ("1234567890", "ABCDEFG",
"abcdefg" and ten zero bytes). -/
def Obligations.ChecksumVectorsAndPieces : Prop :=
  crc16 [] = 0xFFFF ∧ (∀ (a : Bytes) (b : Byte), crc16 (a ++ [b]) = crcStep (crc16 a) b) ∧
  (∀ a b : Bytes, crc16 (a ++ b) = b.foldl crcStep (crc16 a)) ∧
  crc16 [0x31, 0x32, 0x33, 0x34, 0x35, 0x36, 0x37, 0x38, 0x39, 0x30] = 0xC20A ∧
  crc16 [0x41, 0x42, 0x43, 0x44, 0x45, 0x46, 0x47] = 0x9E77 ∧
  crc16 [0x61, 0x62, 0x63, 0x64, 0x65, 0x66, 0x67] = 0xE9C2 ∧
  crc16 [0, 0, 0, 0, 0, 0, 0, 0, 0, 0] = 0x0770

/-- R157: after CRC_INIT, any accesses among which there is no write to CRC and no CRC_INIT, BUILD, CHECK or XCHG leave in
CRC the crc16 of the bytes of the CRC_UPDATEs among them, in order. -/
def Obligations.CrcUpdatesComputeCrc16 : Prop :=
  ∀ (s : State) (ie : Bool) (accesses : List Access), s.blk.busy = false →
    (∀ a ∈ accesses, a.dir = .W → a.off ≠ 0x14 ∧
      (a.off = 0x00 → a.data.extractLsb' 0 4 ∉ [0x1#4, 0x2#4, 0x4#4, 0x5#4])) →
    Answers
      (play (.transaction (encode (.crcInit ie)) :: accesses.map fun a => .transaction (.bus a)) s)
      fun t => t.blk.crc = crc16 (accesses.filterMap crcByte) ∧ t.blk.busy = false

/-- R152: CRC_INIT's encoding, its effect while BUSY = 0 (CRC, ERR and DONE, and IE with the write that issues it; nothing
else), and that a busy block drops it with CRC kept. -/
def Obligations.CrcInitLoadsInitialValue : Prop :=
  ∀ (s : State) (ie : Bool),
    encode (.crcInit ie) = .bus ⟨.W, 4, 0x00, if ie then 0x101 else 0x001⟩ ∧
    (s.blk.busy = false → exec (.crcInit ie) s =
      .next (s.wrote { s.blk with ie := ie, crc := 0xFFFF, err := .none, done := true })) ∧
    (s.blk.busy = true → exec (.crcInit ie) s = .next (s.wrote { s.blk with ie := ie, cmdOverrun := true }))

/-- R153, R42: CRC_UPDATE advances CRC by one byte and writes nothing else, no flag among it; while BUSY = 1 it is a bus
error and CRC keeps its value. Bits [31:8] of the value written are ignored; a read of CRC_DATA returns 0 and does not
step; any other access to the register is a bus error. Zero is a fixed point at byte 0; and R153's example. -/
def Obligations.CrcUpdateSteps : Prop :=
  (∀ v : Word, decodeAccess ⟨.W, 4, 0x18, v⟩ = .ok (.crcUpdate (v.extractLsb' 0 8))) ∧
  (∀ (s : State) (b : Byte),
    (s.blk.busy = false → exec (.crcUpdate b) s = .next (s.wrote { s.blk with crc := crcStep s.blk.crc b })) ∧
    (s.blk.busy = true → exec (.crcUpdate b) s = .next (s.busError 0x18))) ∧
  (∀ (s : State) (v : Word), busAccess ⟨.R, 4, 0x18, v⟩ s = .next (s.respond (.data 0))) ∧
  (∀ (s : State) (v : Word) (d : Dir) (size off : Nat), 0x18 ≤ off → off < 0x1C → size ≠ 4 ∨ off ≠ 0x18 →
    busAccess ⟨d, size, off, v⟩ s = .next (s.busError off)) ∧
  crcStep 0 0 = 0 ∧ crcStep 0xFFFF 0x31 = 0x947E

/-- No single wrong byte goes unnoticed: two sequences of one length that differ in exactly one byte have different
checksums (what makes CHECK's comparison of R175 worth having). -/
def Obligations.ChecksumDetectsOneWrongByte : Prop :=
  ∀ (before after : Bytes) (x y : Byte), x ≠ y → crc16 (before ++ x :: after) ≠ crc16 (before ++ y :: after)

/-! ### Builder and checker -/

/-- R172: a BUILD that succeeds leaves in TXBUF the encoded frame of its opcode and payload; and R170's other results. -/
def Obligations.BuildMakesFrame : Prop :=
  ∀ (s : State) (ie : Bool), s.cfg.Legal → s.blk.busy = false → s.blk.txLen.toNat ≠ 0 →
    s.blk.txLen.toNat + 2 ≤ s.cfg.txbufSize →
    Answers (exec (.build ie) s) fun t =>
      t.blk.err = .none ∧ t.blk.done = true ∧
      t.blk.txFrom 0 t.blk.txFrameLen.toNat =
        encodeFrame (s.blk.txByte 0) (s.blk.txFrom 1 (s.blk.txLen.toNat - 1)) ∧
      t.blk.txFrameLen.toNat = s.blk.txLen.toNat + 2 ∧
      t.blk.crc = crc16 (s.blk.txFrom 0 s.blk.txLen.toNat)

/-- R174: BUILD's frame. A successful BUILD writes two TXBUF bytes, CRC, TX_FRAME_LEN, ERR, DONE and IE; a failed one, whose
code is TX_LENGTH, writes no TXBUF byte and not CRC, and TX_FRAME_LEN takes 0. -/
def Obligations.BuildWritesExactlyTwoBytes : Prop :=
  ∀ (s : State) (ie : Bool), s.blk.busy = false →
    Answers (exec (.build ie) s) fun t =>
      sameOutside s t ∧ sameProgram s t ∧
      (s.blk.txLen.toNat ≠ 0 ∧ s.blk.txLen.toNat + 2 ≤ s.cfg.txbufSize →
        (∀ a, a ≠ txBase + s.blk.txLen.toNat → a ≠ txBase + s.blk.txLen.toNat + 1 → t.blk.byte a = s.blk.byte a) ∧
        t.blk = { s.blk with
          ie := ie, err := .none, done := true
          crc := t.blk.crc, txFrameLen := t.blk.txFrameLen, mem := t.blk.mem }) ∧
      (¬(s.blk.txLen.toNat ≠ 0 ∧ s.blk.txLen.toNat + 2 ≤ s.cfg.txbufSize) →
        t.blk = { s.blk with ie := ie, err := .txLength, done := true, txFrameLen := 0 })

/-- R171: BUILD is a pure function of TX_LEN and TXBUF[0..TX_LEN-1]: two blocks of the same parameters that agree on these
get the same frame, checksum, length and code, whatever else they hold. -/
def Obligations.BuildIsPure : Prop :=
  ∀ (s s' : State) (ie ie' : Bool), s.cfg = s'.cfg → s.blk.busy = false → s'.blk.busy = false →
    s.blk.txLen = s'.blk.txLen →
    (∀ i < s.blk.txLen.toNat, s.blk.txByte i = s'.blk.txByte i) →
    Answers (exec (.build ie) s) fun t => Answers (exec (.build ie') s') fun t' =>
      t.blk.err = t'.blk.err ∧ t.blk.txFrameLen = t'.blk.txFrameLen ∧
      (t.blk.err = .none → t.blk.crc = t'.blk.crc ∧
        ∀ i < t.blk.txFrameLen.toNat, t.blk.txByte i = t'.blk.txByte i)

/-- R176: CHECK gives NONE exactly for the encoded frames that fit RXBUF; and so every frame BUILD makes passes CHECK when
it is copied into RXBUF with RX_LEN = TX_FRAME_LEN. -/
def Obligations.CheckAcceptsExactlyEncodedFrames : Prop :=
  (∀ (s : State) (ie : Bool), s.blk.busy = false →
    Answers (exec (.check ie) s) fun t =>
      t.blk.err = .none ↔ 3 ≤ s.blk.rxLen.toNat ∧ s.blk.rxLen.toNat ≤ s.cfg.rxbufSize ∧
        s.blk.rxFrom 0 s.blk.rxLen.toNat = encodeFrame (s.blk.rxByte 0) (s.blk.rxFrom 1 (s.blk.rxLen.toNat - 3))) ∧
  (∀ (s t s' : State) (ie ie' : Bool), s.cfg.Legal → s.blk.busy = false →
    exec (.build ie) s = .next t → t.blk.err = .none →
    s'.blk.busy = false → s'.blk.rxLen = t.blk.txFrameLen → s'.blk.rxLen.toNat ≤ s'.cfg.rxbufSize →
    s'.blk.rxFrom 0 s'.blk.rxLen.toNat = t.blk.txFrom 0 t.blk.txFrameLen.toNat →
    Answers (exec (.check ie') s') fun t' => t'.blk.err = .none)

/-- R175: CHECK's code, in its order, what it writes, and that it writes nothing else (RX_TRAILER and CRC only where the
comparison is reached; no buffer byte, no other RX register). -/
def Obligations.CheckCompares : Prop :=
  ∀ (s : State) (ie : Bool), s.blk.busy = false →
    let L := s.blk.rxLen.toNat
    let c := crc16 (s.blk.rxFrom 0 (L - 2))
    let r : Half := s.blk.rxByte (L - 2) ++ s.blk.rxByte (L - 1)
    exec (.check ie) s = .next (s.wrote
      (if s.cfg.rxbufSize < L then { s.blk with ie := ie, err := .rxLength, done := true }
       else if L < 3 then { s.blk with ie := ie, err := .malformedLength, done := true }
       else { s.blk with
          ie := ie, crc := c, rxTrailer := r
          err := if c = r then .none else .crcMismatch
          done := true }))

/-- R180, R181: NOP only updates IE, whatever BUSY is. The reserved commands, and XCHG on a block without the engine, complete
with ILLEGAL_CMD; no register but ERR and DONE (and IE with the write) changes. A busy block drops them like any other. -/
def Obligations.NopSetsIeAndReservedAreIllegal : Prop :=
  (∀ v : Word, v.extractLsb' 0 4 = 0x0#4 → decodeAccess ⟨.W, 4, 0x00, v⟩ = .ok (.nop (v.getLsbD 8))) ∧
  (∀ v : Word, 0x6 ≤ (v.extractLsb' 0 4).toNat → ∃ ie bit0 low,
    decodeAccess ⟨.W, 4, 0x00, v⟩ = .ok (.reserved67 ie bit0) ∨
      decodeAccess ⟨.W, 4, 0x00, v⟩ = .ok (.reserved8F ie low)) ∧
  ∀ (s : State) (ie bit0 : Bool) (low : BitVec 3),
    exec (.nop ie) s = .next (s.wrote { s.blk with ie := ie }) ∧
    (s.blk.busy = false →
      exec (.reserved67 ie bit0) s = .next (s.wrote { s.blk with ie := ie, err := .illegalCmd, done := true }) ∧
      exec (.reserved8F ie low) s = .next (s.wrote { s.blk with ie := ie, err := .illegalCmd, done := true }) ∧
      (s.cfg.enginePresent = false →
        exec (.xchg ie) s = .next (s.wrote { s.blk with ie := ie, err := .illegalCmd, done := true }))) ∧
    (s.blk.busy = true →
      exec (.reserved67 ie bit0) s = .next (s.wrote { s.blk with ie := ie, cmdOverrun := true }) ∧
      exec (.reserved8F ie low) s = .next (s.wrote { s.blk with ie := ie, cmdOverrun := true }))

/-- R35, R110: a CTRL write sets IE, then does nothing (CMD = 0), or drops the command and sets CMD_OVERRUN (BUSY = 1), or
runs the command of R110's table on a block whose DONE is cleared. It never gives a bus error. -/
def Obligations.CtrlWriteOrder : Prop :=
  ∀ (s : State) (v : Word),
    Answers (busAccess ⟨.W, 4, 0x00, v⟩ s) fun t =>
      t.host.response = .ok ∧ sameOutside s t ∧ sameProgram s t ∧
      (v.extractLsb' 0 4 = 0x0#4 → t.blk = { s.blk with ie := v.getLsbD 8 }) ∧
      (v.extractLsb' 0 4 ≠ 0x0#4 → s.blk.busy = true → t.blk = { s.blk with ie := v.getLsbD 8, cmdOverrun := true }) ∧
      (v.extractLsb' 0 4 ≠ 0x0#4 → s.blk.busy = false →
        t.blk = commandBody (v.extractLsb' 0 4).toNat s.cfg (accepted s (v.getLsbD 8)))

/-! ### The parser -/

/-- R201: the round trip. A wrapped payload with status 0, for every reserved byte and trailer, parses with NONE to a body
equal to it; R197's other results. -/
def Obligations.ParseRoundTrip : Prop :=
  ∀ (s : State) (ie : Bool) (body : Bytes) (reserved t0 t1 : Byte), s.cfg.Legal → s.blk.busy = false →
    s.blk.rxLen.toNat = body.length + 10 → body.length + 10 ≤ s.cfg.rxbufSize →
    s.blk.rxFrom 0 (body.length + 10) = wrap 0x00 reserved body t0 t1 →
    Answers (exec (.parse ie) s) fun t =>
      t.blk.err = .none ∧ t.blk.done = true ∧ t.blk.rxStatus = 0x00 ∧ t.blk.rxReserved = reserved ∧
      t.blk.rxBodyLen.toNat = body.length ∧ t.blk.rxFrom 5 t.blk.rxBodyLen.toNat = body ∧
      t.blk.rxTrailer = (t0 ++ t1 : Half) ∧ t.blk.rxHeader = 0xAAABAA ∧ t.blk.rxFooter = 0xABCCAB

/-- R196: a frame with a nonzero status gives DEVICE_ERROR, and the extraction registers keep the fields, the message in
place in RXBUF. -/
def Obligations.ParseReportsDeviceError : Prop :=
  ∀ (s : State) (ie : Bool) (status reserved t0 t1 : Byte) (body : Bytes), s.cfg.Legal → s.blk.busy = false →
    status ≠ 0x00 → s.blk.rxLen.toNat = body.length + 10 → body.length + 10 ≤ s.cfg.rxbufSize →
    s.blk.rxFrom 0 (body.length + 10) = wrap status reserved body t0 t1 →
    Answers (exec (.parse ie) s) fun t =>
      t.blk.err = .deviceError ∧ t.blk.done = true ∧ t.blk.rxStatus = status ∧ t.blk.rxReserved = reserved ∧
      t.blk.rxBodyLen.toNat = body.length ∧ t.blk.rxFrom 5 t.blk.rxBodyLen.toNat = body ∧
      t.blk.rxTrailer = (t0 ++ t1 : Half) ∧ t.blk.rxHeader = 0xAAABAA ∧ t.blk.rxFooter = 0xABCCAB

/-- R204: when several checks fail, PARSE reports the first in the order RX_LENGTH, MALFORMED_LENGTH, MALFORMED_HEADER,
MALFORMED_FOOTER, MALFORMED_SHORT, DEVICE_ERROR. -/
def Obligations.ParseReportsFirstFailure : Prop :=
  ∀ (s : State) (ie : Bool), s.blk.busy = false →
    let L := s.blk.rxLen.toNat
    let long := s.cfg.rxbufSize < L
    let headerBad := s.blk.rxFrom 0 3 ≠ [0xAA, 0xAB, 0xAA]
    let footerBad := s.blk.rxFrom (L - 3) 3 ≠ [0xAB, 0xCC, 0xAB]
    Answers (exec (.parse ie) s) fun t =>
      (t.blk.err = .rxLength ↔ long) ∧
      (t.blk.err = .malformedLength ↔ ¬long ∧ L < 6) ∧
      (t.blk.err = .malformedHeader ↔ ¬long ∧ 6 ≤ L ∧ headerBad) ∧
      (t.blk.err = .malformedFooter ↔ ¬long ∧ 6 ≤ L ∧ ¬headerBad ∧ footerBad) ∧
      (t.blk.err = .malformedShort ↔ ¬long ∧ 6 ≤ L ∧ ¬headerBad ∧ ¬footerBad ∧ L < 10) ∧
      (t.blk.err = .deviceError ↔ ¬long ∧ ¬headerBad ∧ ¬footerBad ∧ 10 ≤ L ∧ s.blk.rxByte 3 ≠ 0x00) ∧
      (t.blk.err = .none ↔ ¬long ∧ ¬headerBad ∧ ¬footerBad ∧ 10 ≤ L ∧ s.blk.rxByte 3 = 0x00)

/-- R202: PARSE writes no buffer byte and neither CRC nor RX_LEN nor TX_FRAME_LEN (nor anything else but ERR, DONE, IE and
the extraction registers, and 0 in these where it fails with another code than DEVICE_ERROR), and is a pure function of
RX_LEN and RXBUF[0..RX_LEN-1]. -/
def Obligations.ParseIsPure : Prop :=
  (∀ (s : State) (ie : Bool), s.blk.busy = false →
    Answers (exec (.parse ie) s) fun t =>
      sameOutside s t ∧ sameProgram s t ∧
      t.blk = { s.blk with
        ie := ie, err := t.blk.err, done := true
        rxStatus := t.blk.rxStatus, rxReserved := t.blk.rxReserved, rxBodyLen := t.blk.rxBodyLen
        rxTrailer := t.blk.rxTrailer, rxHeader := t.blk.rxHeader, rxFooter := t.blk.rxFooter } ∧
      (t.blk.err ≠ .none → t.blk.err ≠ .deviceError →
        t.blk.rxStatus = 0 ∧ t.blk.rxReserved = 0 ∧ t.blk.rxBodyLen = 0 ∧ t.blk.rxTrailer = 0 ∧
        t.blk.rxHeader = 0 ∧ t.blk.rxFooter = 0)) ∧
  (∀ (s s' : State) (ie ie' : Bool), s.cfg = s'.cfg → s.blk.busy = false → s'.blk.busy = false →
    s.blk.rxLen = s'.blk.rxLen → (∀ i < s.blk.rxLen.toNat, s.blk.rxByte i = s'.blk.rxByte i) →
    Answers (exec (.parse ie) s) fun t => Answers (exec (.parse ie') s') fun t' =>
      t.blk.err = t'.blk.err ∧ t.blk.rxStatus = t'.blk.rxStatus ∧ t.blk.rxReserved = t'.blk.rxReserved ∧
      t.blk.rxBodyLen = t'.blk.rxBodyLen ∧ t.blk.rxTrailer = t'.blk.rxTrailer ∧
      t.blk.rxHeader = t'.blk.rxHeader ∧ t.blk.rxFooter = t'.blk.rxFooter)

/-- R198, R199: the trailer, the reserved byte and the body are never checked: two frames of one length, of at least 10
bytes, that agree in the markers and the status byte get the same ERR and differ, of the registers, at most in RX_TRAILER and
RX_RESERVED, which report each frame's own bytes. -/
def Obligations.TrailerAndReservedNeverMatter : Prop :=
  ∀ (s s' : State) (ie : Bool), s.cfg = s'.cfg → s.blk.busy = false → s'.blk.busy = false →
    s.blk.rxLen = s'.blk.rxLen → 10 ≤ s.blk.rxLen.toNat →
    (∀ i < s.blk.rxLen.toNat, i < 4 ∨ s.blk.rxLen.toNat - 3 ≤ i → s.blk.rxByte i = s'.blk.rxByte i) →
    Answers (exec (.parse ie) s) fun t => Answers (exec (.parse ie) s') fun t' =>
      t.blk.err = t'.blk.err ∧ t.blk.rxStatus = t'.blk.rxStatus ∧ t.blk.rxBodyLen = t'.blk.rxBodyLen ∧
      t.blk.rxHeader = t'.blk.rxHeader ∧ t.blk.rxFooter = t'.blk.rxFooter ∧
      (t.blk.err = .none ∨ t.blk.err = .deviceError →
        t.blk.rxTrailer = s.blk.rxByte (s.blk.rxLen.toNat - 5) ++ s.blk.rxByte (s.blk.rxLen.toNat - 4) ∧
        t.blk.rxReserved = s.blk.rxByte 4)

/-! ### The engine -/

/-- R221: XCHG's acceptance. A BUILD that fails ends it at once with TX_LENGTH and ENG_STATE = FAILED; one that succeeds
leaves its writes to TXBUF, CRC and TX_FRAME_LEN and starts the exchange, DONE cleared and ERR kept. That the idle timer is
stopped then is no word of R221 but the model's reading (assumption 10). -/
def Obligations.XchgAcceptance : Prop :=
  ∀ (s : State) (ie : Bool), s.blk.busy = false → s.cfg.enginePresent = true →
    (¬(s.blk.txLen.toNat ≠ 0 ∧ s.blk.txLen.toNat + 2 ≤ s.cfg.txbufSize) →
      exec (.xchg ie) s = .next (s.wrote
        { s.blk with ie := ie, txFrameLen := 0, engState := .failed, err := .txLength, done := true })) ∧
    (s.blk.txLen.toNat ≠ 0 ∧ s.blk.txLen.toNat + 2 ≤ s.cfg.txbufSize →
      Answers (exec (.xchg ie) s) fun t => Answers (exec (.build ie) s) fun u =>
        sameOutside s t ∧ sameProgram s t ∧
        t.blk = { s.blk with
          ie := ie, done := false
          mem := u.blk.mem, crc := u.blk.crc, txFrameLen := u.blk.txFrameLen
          busy := true, engState := .frameSent, txi := 0, rxn := 0, ovf := false, capturing := true
          idleTimer := .stopped })

/-- R222: a transmit step sends the next TXBUF byte and nothing else, and the last one moves the engine on. That an engine step
which is not enabled changes nothing is no word of R222 but the model's choice (assumption 1). -/
def Obligations.TransmitSendsNextByte : Prop :=
  ∀ s : State, s.blk.Inv s.cfg →
    Answers (runEvent .engineTx s) fun t =>
      (s.blk.engState ≠ .frameSent → t = s) ∧
      (s.blk.engState = .frameSent →
        t.env = { s.env with lineOut := s.env.lineOut ++ [s.blk.txByte s.blk.txi] } ∧
        t.cfg = s.cfg ∧ t.host = s.host ∧
        t.blk = { s.blk with
          txi := s.blk.txi + 1, engState := t.blk.engState, idleTimer := t.blk.idleTimer } ∧
        (t.blk.engState = .awaitingResponse ↔ s.blk.txi + 1 = s.blk.txFrameLen.toNat) ∧
        (t.blk.engState = .frameSent ↔ s.blk.txi + 1 < s.blk.txFrameLen.toNat))

/-- R226, R227: a byte that arrives while capturing is stored at RXBUF[rxn], or dropped with ovf set when RXBUF is full; one
that arrives while nothing captures changes no state. The host is not running its own read loop (R281). -/
def Obligations.ReceiveStoresOrDrops : Prop :=
  ∀ (s : State) (b : Byte), s.host.collecting = none →
    Answers (runEvent (.lineByte b) s) fun t =>
      t.cfg = s.cfg ∧ t.host = s.host ∧ t.env = s.env ∧
      (s.blk.capturing = false → t = s) ∧
      (s.blk.capturing = true → s.blk.rxn < s.cfg.rxbufSize →
        t.blk.rxByte s.blk.rxn = b ∧ (∀ a, a ≠ rxBase + s.blk.rxn → t.blk.byte a = s.blk.byte a) ∧
        t.blk = { s.blk with rxn := s.blk.rxn + 1, mem := t.blk.mem, idleTimer := .running }) ∧
      (s.blk.capturing = true → ¬s.blk.rxn < s.cfg.rxbufSize →
        t.blk = { s.blk with ovf := true, idleTimer := .running })

/-- R229, R230: the idle event of an exchange that awaits its response completes it, in one of three ways, with RX_LEN the
number of bytes stored, BUSY cleared and DONE set in the same step. That the idle timer is stopped then is the model's
reading of R331 (assumption 10). -/
def Obligations.IdleCompletesExchange : Prop :=
  ∀ s : State, s.host.collecting = none → s.blk.capturing = true → s.blk.engState = .awaitingResponse →
    Answers (runEvent .lineIdle s) fun t =>
      let b := { s.blk with capturing := false, idleTimer := .stopped, rxLen := BitVec.ofNat 32 s.blk.rxn }
      let zeroed : Block := { b with
        rxStatus := 0, rxReserved := 0, rxBodyLen := 0, rxTrailer := 0, rxHeader := 0, rxFooter := 0 }
      t.cfg = s.cfg ∧ t.host = s.host ∧ t.env = s.env ∧
      (s.blk.rxn = 0 →
        t.blk = { zeroed with engState := .failed, busy := false, err := .noResponse, done := true }) ∧
      (s.blk.rxn ≠ 0 → s.blk.ovf = true →
        t.blk = { zeroed with engState := .failed, busy := false, err := .rxOverflow, done := true }) ∧
      (s.blk.rxn ≠ 0 → s.blk.ovf = false →
        t.blk = { parse s.cfg b with
          engState := if (parse s.cfg b).err = .none then .decoded else .failed
          busy := false })

/-- R236: ENG_STATE moves only as the rule's table shows. -/
def Obligations.EngStateMovesOnlyAsTabled : Prop :=
  ∀ s t : State, s.Inv → step s = .next t → t.blk.engState ≠ s.blk.engState →
    (t.blk.engState = .failed ∧ t.blk.err = .txLength ∧ s.blk.busy = false) ∨
    (t.blk.engState = .frameSent ∧ t.blk.busy = true ∧ s.blk.busy = false) ∨
    (s.blk.engState = .frameSent ∧ t.blk.engState = .awaitingResponse ∧ t.blk.txi = t.blk.txFrameLen.toNat) ∨
    (s.blk.engState = .awaitingResponse ∧ t.blk.busy = false ∧
      ((t.blk.engState = .decoded ∧ t.blk.err = .none) ∨ (t.blk.engState = .failed ∧ t.blk.err ≠ .none))) ∨
    (t.blk.engState = .idle ∧ t.blk = Block.reset s.cfg (s.blk.epoch + 1))

/-- R235: an exchange need not end. However many bytes the line delivers and the host polls meanwhile, with no idle event
BUSY stays 1: the run of `bytes`, each followed by a host read of STATUS, leaves it so. -/
def Obligations.ExchangeCanRunForever : Prop :=
  ∀ (s : State) (bytes : Bytes), s.host.collecting = none → s.blk.busy = true → s.blk.capturing = true →
    Answers
      (play (bytes.flatMap fun b => [.lineByte b, .transaction (.bus (rd32 0x04))]) s)
      fun t => t.blk.busy = true ∧ t.blk.done = s.blk.done ∧ t.blk.engState = s.blk.engState

/-- The whole exchange, from the XCHG write to its completion (43_engine.md): the line carries exactly the encoded frame;
RXBUF and RX_LEN hold the response; ERR, ENG_STATE and the extraction registers are those of PARSE. -/
def Obligations.ExchangeSendsFrameAndParsesResponse : Prop :=
  ∀ (s : State) (ie : Bool) (response : Bytes),
    s.cfg.Legal → s.cfg.enginePresent = true → s.blk.busy = false → s.host.collecting = none →
    s.blk.txLen.toNat ≠ 0 → s.blk.txLen.toNat + 2 ≤ s.cfg.txbufSize →
    response ≠ [] → response.length ≤ s.cfg.rxbufSize →
    Answers
      (play (.transaction (encode (.xchg ie)) :: List.replicate (s.blk.txLen.toNat + 2) .engineTx ++
        deviceAnswers response) s)
      fun t =>
        t.env.lineOut = s.env.lineOut ++ encodeFrame (s.blk.txByte 0) (s.blk.txFrom 1 (s.blk.txLen.toNat - 1)) ∧
        t.blk.busy = false ∧ t.blk.done = true ∧
        t.blk.rxLen.toNat = response.length ∧ t.blk.rxFrom 0 response.length = response ∧
        t.blk.err = parseCode s.cfg t.blk ∧
        (t.blk.engState = .decoded ↔ t.blk.err = .none) ∧ (t.blk.engState = .failed ↔ t.blk.err ≠ .none) ∧
        (t.blk.err = .none → t.blk.rxBodyLen.toNat = response.length - 10 ∧ t.blk.rxReserved = t.blk.rxByte 4)

/-! ### The bus -/

/-- R310: an access that gets a bus error has no effect on any state of the block, nor on the interrupt. -/
def Obligations.BusErrorHasNoEffect : Prop :=
  ∀ (s t : State) (a : Access) (r : Fault), busAccess a s = .next t → t.host.response = .fault r →
    t.blk = s.blk ∧ t.irq = s.irq ∧ t.cfg = s.cfg ∧ t.env = s.env ∧ sameProgram s t

/-- R311: an access gets a bus error for exactly the causes listed, and its address is reported. -/
def Obligations.BusErrorCauses : Prop :=
  ∀ (s : State) (a : Access), s.cfg.Legal →
    Answers (busAccess a s) fun t =>
      t.host.response = .fault (.busError a.off) ↔
        (∃ k < a.size, 0x000FF < a.off + k ∧ ¬(0x01000 ≤ a.off + k ∧ a.off + k ≤ 0x01FFF) ∧
          ¬(0x10000 ≤ a.off + k ∧ a.off + k ≤ 0x1FFFF)) ∨
        (∃ k < a.size, 0x01000 + s.cfg.txbufSize ≤ a.off + k ∧ a.off + k ≤ 0x01FFF) ∨
        (∃ k < a.size, 0x10000 + s.cfg.rxbufSize ≤ a.off + k ∧ a.off + k ≤ 0x1FFFF) ∨
        (a.size = 1 ∧ a.off ≤ 0x000FF) ∨
        (a.size = 4 ∧ a.off % 4 ≠ 0) ∨
        (a.size ≠ 1 ∧ a.size ≠ 4) ∨
        (a.dir = .W ∧ s.blk.busy = true ∧ 0x000FF < a.off) ∨
        (a.dir = .W ∧ s.blk.busy = true ∧
          (a.off = 0x14 ∨ a.off = 0x18 ∨ a.off = 0x1C ∨ a.off = 0x24 ∨
            (s.cfg.enginePresent = true ∧ (a.off = 0x44 ∨ a.off = 0x48))))

/-- R84, R85: bytes and aligned words of either buffer, while BUSY = 0: what a write changes, byte lane by byte lane and
little-endian, and nothing else; what a read returns; and that a word off its alignment, or one that does not fit, is a bus
error. R86: while BUSY = 1 every write is a bus error, and every read that is none completes with some data and no effect on
the block (which data is a free value, assumption 5). -/
def Obligations.BufferAccesses : Prop :=
  ∀ (s : State) (base size i : Nat) (v : Word), s.cfg.Legal → bufferWindow s.cfg base size → i < size →
    let fits := fun n => n = 1 ∨ (n = 4 ∧ i % 4 = 0 ∧ i + 3 < size)
    (s.blk.busy = false →
      (Answers (busAccess ⟨.W, 1, base + i, v⟩ s) fun t =>
        t.host.response = .ok ∧ t.blk.byte (base + i) = v.extractLsb' 0 8 ∧
        (∀ a, a ≠ base + i → t.blk.byte a = s.blk.byte a) ∧ t.blk = { s.blk with mem := t.blk.mem }) ∧
      busAccess ⟨.R, 1, base + i, v⟩ s = .next (s.respond (.data ((s.blk.byte (base + i)).setWidth 32))) ∧
      (i % 4 = 0 → i + 3 < size → Answers (busAccess ⟨.W, 4, base + i, v⟩ s) fun t =>
        t.host.response = .ok ∧
        t.blk.byte (base + i) = v.extractLsb' 0 8 ∧ t.blk.byte (base + i + 1) = v.extractLsb' 8 8 ∧
        t.blk.byte (base + i + 2) = v.extractLsb' 16 8 ∧ t.blk.byte (base + i + 3) = v.extractLsb' 24 8 ∧
        (∀ a, a < base + i ∨ base + i + 4 ≤ a → t.blk.byte a = s.blk.byte a) ∧
        t.blk = { s.blk with mem := t.blk.mem }) ∧
      (i % 4 = 0 → i + 3 < size → busAccess ⟨.R, 4, base + i, v⟩ s =
        .next (s.respond (.data (s.blk.byte (base + i + 3) ++ s.blk.byte (base + i + 2) ++ s.blk.byte (base + i + 1) ++
          s.blk.byte (base + i)))))) ∧
    (s.blk.busy = true →
      (∀ n, busAccess ⟨.W, n, base + i, v⟩ s = .next (s.busError (base + i))) ∧
      (∀ n, fits n → ∃ w, busAccess ⟨.R, n, base + i, v⟩ s = .next (s.drew.respond (.data w)))) ∧
    (∀ n d, ¬fits n → busAccess ⟨d, n, base + i, v⟩ s = .next (s.busError (base + i)))

/-- R89: no read has a side effect on the block, whatever its address, its width and the state. -/
def Obligations.ReadsHaveNoSideEffect : Prop :=
  ∀ (s : State) (size off : Nat) (v : Word),
    Answers (busAccess ⟨.R, size, off, v⟩ s) fun t => t.blk = s.blk ∧ t.cfg = s.cfg ∧ sameProgram s t ∧
      t.env.lineOut = s.env.lineOut ∧ t.env.inputs = s.env.inputs

/-- R36, R38: the bits STATUS reads as, while BUSY = 0; and while BUSY = 1 those of BUSY, DONE and CMD_OVERRUN. -/
def Obligations.StatusReadsItsFields : Prop :=
  ∀ s : State,
    Answers (busAccess (rd32 0x04) s) fun t => ∃ v : Word, t.host.response = .data v ∧
      v.getLsbD 0 = s.blk.busy ∧ v.getLsbD 1 = s.blk.done ∧ v.getLsbD 2 = s.blk.cmdOverrun ∧
      v.getLsbD 3 = false ∧ v.extractLsb' 24 8 = 0#8 ∧
      (s.blk.busy = false → v.extractLsb' 4 4 = s.blk.err.code ∧ v.extractLsb' 8 8 = s.blk.rxStatus ∧
        v.extractLsb' 16 8 = s.blk.rxReserved)

/-- R32-R50: what the other registers read as, and that unused offsets of the CSR window read as 0. While BUSY = 1 this holds
of every register but those whose value is then unspecified (U2). -/
def Obligations.RegistersReadTheirValues : Prop :=
  ∀ (s : State) (off : Nat), off ≤ 0xFC → off % 4 = 0 →
    (s.blk.busy = true → off ∉ [0x04, 0x14, 0x20, 0x24, 0x28, 0x2C, 0x30, 0x34]) →
    Answers (busAccess (rd32 off) s) fun t => ∃ v : Word, t.host.response = .data v ∧
      (off = 0x00 → v = if s.blk.ie then 0x100 else 0) ∧
      (off = 0x08 → v = if s.cfg.enginePresent then 1 else 0) ∧
      (off = 0x0C → v = BitVec.ofNat 32 s.cfg.txbufSize) ∧ (off = 0x10 → v = BitVec.ofNat 32 s.cfg.rxbufSize) ∧
      (off = 0x14 → v.toNat = s.blk.crc.toNat) ∧ (off = 0x18 → v = 0) ∧
      (off = 0x1C → v = s.blk.txLen) ∧ (off = 0x20 → v = s.blk.txFrameLen) ∧ (off = 0x24 → v = s.blk.rxLen) ∧
      (off = 0x28 → v = s.blk.rxBodyLen) ∧ (off = 0x2C → v.toNat = s.blk.rxTrailer.toNat) ∧
      (off = 0x30 → v.toNat = s.blk.rxHeader.toNat) ∧ (off = 0x34 → v.toNat = s.blk.rxFooter.toNat) ∧
      (off = 0x40 → v.toNat = if s.cfg.enginePresent then s.blk.engState.code.toNat else 0) ∧
      (off = 0x44 → v = if s.cfg.enginePresent then s.blk.engTimeout else 0) ∧
      (off = 0x48 → v = if s.cfg.enginePresent then s.blk.uartDiv else 0) ∧
      (off = 0x38 ∨ off = 0x3C ∨ 0x4C ≤ off → v = 0)

/-- R37: a write to STATUS clears DONE where bit 1 is 1 and CMD_OVERRUN where bit 2 is 1, and ignores every other bit. -/
def Obligations.StatusWriteOneToClear : Prop :=
  ∀ (s : State) (v : Word),
    busAccess ⟨.W, 4, 0x04, v⟩ s = .next (s.wrote { s.blk with
      done := if v.getLsbD 1 then false else s.blk.done
      cmdOverrun := if v.getLsbD 2 then false else s.blk.cmdOverrun })

/-- R33, R41, R43, R45, R50: host writes to the other registers while BUSY = 0. CRC takes the low half; the lengths take any
value; 0 is stored as 1 in ENG_TIMEOUT and UART_DIV (which ignore writes without the engine); read-only registers and unused
offsets ignore the write. -/
def Obligations.RegisterWrites : Prop :=
  ∀ (s : State) (v : Word), s.blk.busy = false →
    busAccess ⟨.W, 4, 0x14, v⟩ s = .next (s.wrote { s.blk with crc := v.extractLsb' 0 16 }) ∧
    busAccess ⟨.W, 4, 0x1C, v⟩ s = .next (s.wrote { s.blk with txLen := v }) ∧
    busAccess ⟨.W, 4, 0x24, v⟩ s = .next (s.wrote { s.blk with rxLen := v }) ∧
    (s.cfg.enginePresent = true →
      busAccess ⟨.W, 4, 0x44, v⟩ s = .next (s.wrote { s.blk with engTimeout := if v = 0 then 1 else v }) ∧
      busAccess ⟨.W, 4, 0x48, v⟩ s = .next (s.wrote { s.blk with uartDiv := if v = 0 then 1 else v })) ∧
    (s.cfg.enginePresent = false →
      busAccess ⟨.W, 4, 0x44, v⟩ s = .next (s.wrote s.blk) ∧ busAccess ⟨.W, 4, 0x48, v⟩ s = .next (s.wrote s.blk)) ∧
    ∀ off, off ≤ 0xFC → off % 4 = 0 →
      off ∉ [0x00, 0x04, 0x14, 0x18, 0x1C, 0x24, 0x44, 0x48] →
      busAccess ⟨.W, 4, off, v⟩ s = .next (s.wrote s.blk)

/-! ### Flags and the interrupt -/

/-- R320, R322: irq is IE and DONE; it is 0 after reset; it is 1 in the very step that completes a command, where IE is 1: for
an atomic command (and an XCHG that its acceptance ends) the CTRL write, and for an exchange the idle step. -/
def Obligations.IrqRisesWithCompletion : Prop :=
  (∀ s : State, s.irq = true ↔ s.blk.ie = true ∧ s.blk.done = true) ∧ (∀ c : Config, (State.resetWith c).irq = false) ∧
  (∀ (s : State) (ie bit0 : Bool) (low : BitVec 3) (i : Instr), s.blk.busy = false →
    i ∈ [.crcInit ie, .build ie, .parse ie, .check ie, .reserved67 ie bit0, .reserved8F ie low] →
    Answers (exec i s) fun t => t.irq = ie ∧ t.blk.done = true) ∧
  (∀ (s : State) (ie : Bool), s.blk.busy = false →
    Answers (exec (.xchg ie) s) fun t => t.blk.done = !t.blk.busy ∧ t.irq = (ie && !t.blk.busy)) ∧
  ∀ s : State, s.host.collecting = none → s.blk.capturing = true → s.blk.engState = .awaitingResponse →
    Answers (runEvent .lineIdle s) fun t => t.irq = s.blk.ie ∧ t.blk.done = true

/-- R305: a command written while BUSY = 1 is dropped and sets CMD_OVERRUN; ERR, DONE and the exchange are untouched (IE goes
with the write, R35). CMD_OVERRUN, once set, stays 1 until the host writes 1 to STATUS bit 2, or the platform resets the
block (R341). -/
def Obligations.OverrunStaysUntilCleared : Prop :=
  (∀ (s : State) (v : Word), s.blk.busy = true → v.extractLsb' 0 4 ≠ 0x0#4 →
    busAccess ⟨.W, 4, 0x00, v⟩ s = .next (s.wrote { s.blk with ie := v.getLsbD 8, cmdOverrun := true })) ∧
  ∀ s t : State, step s = .next t → s.blk.cmdOverrun = true → t.blk.cmdOverrun = false →
    (∃ v : Word, v.getLsbD 2 = true ∧ t.blk = s.blk.writeStatus v) ∨ t.blk = Block.reset s.cfg (s.blk.epoch + 1)

/-- R36, R53: BUSY is set only by the acceptance of an XCHG whose BUILD succeeds, and cleared only by that exchange's
completion, which sets DONE, or by reset. -/
def Obligations.BusyChangesOnlyWithExchange : Prop :=
  ∀ s t : State, s.Inv → step s = .next t →
    (s.blk.busy = false → t.blk.busy = true →
      t.blk.engState = .frameSent ∧ t.blk.txFrameLen.toNat = s.blk.txLen.toNat + 2 ∧ s.cfg.enginePresent = true) ∧
    (s.blk.busy = true → t.blk.busy = false →
      (s.blk.engState = .awaitingResponse ∧ t.blk.done = true ∧ t.blk.rxLen = BitVec.ofNat 32 s.blk.rxn) ∨
        t.blk = Block.reset s.cfg (s.blk.epoch + 1))

/-- R234, R359, R310: while an exchange runs, no step but its completion and reset changes an input of it: the lengths, CRC,
the timeout, the divisor, the frame in TXBUF, or ERR. -/
def Obligations.ExchangeInputsAreFrozen : Prop :=
  ∀ s t : State, s.Inv → step s = .next t → s.blk.busy = true → t.blk.busy = true →
    t.blk.txLen = s.blk.txLen ∧ t.blk.txFrameLen = s.blk.txFrameLen ∧ t.blk.rxLen = s.blk.rxLen ∧
    t.blk.crc = s.blk.crc ∧ t.blk.engTimeout = s.blk.engTimeout ∧ t.blk.uartDiv = s.blk.uartDiv ∧
    t.blk.err = s.blk.err ∧ ∀ i < s.cfg.txbufSize, t.blk.txByte i = s.blk.txByte i

/-- R44: TX_FRAME_LEN is 0 after reset; a BUILD, or the BUILD step of an XCHG, that succeeds writes TX_LEN + 2, one that
fails writes 0, and no other step changes it, whatever the host writes. -/
def Obligations.FrameLengthWrittenOnlyByBuild : Prop :=
  (∀ c epoch, (Block.reset c epoch).txFrameLen = 0) ∧
  (∀ (s : State) (ie : Bool) (i : Instr), s.cfg.Legal → s.blk.busy = false →
    i = .build ie ∨ (i = .xchg ie ∧ s.cfg.enginePresent = true) →
    Answers (exec i s) fun t => t.blk.txFrameLen.toNat =
      if s.blk.txLen.toNat ≠ 0 ∧ s.blk.txLen.toNat + 2 ≤ s.cfg.txbufSize then s.blk.txLen.toNat + 2 else 0) ∧
  ∀ s t : State, s.cfg.Legal → step s = .next t → t.blk.txFrameLen ≠ s.blk.txFrameLen →
    (t.blk.txFrameLen.toNat = s.blk.txLen.toNat + 2 ∧ t.blk.crc = crc16 (s.blk.txFrom 0 s.blk.txLen.toNat) ∧
      (t.blk.err = .none ∨ t.blk.busy = true)) ∨
    (t.blk.txFrameLen = 0 ∧ t.blk.err = .txLength) ∨
    t.blk = Block.reset s.cfg (s.blk.epoch + 1)

/-! ### Reset and invariants -/

/-- R341: the value of every piece of the block's state after reset. The buffers hold free values (U1; the model's choice of
form, assumption 4). -/
def Obligations.ResetValues : Prop :=
  ∀ c : Config, c.fClkHz < 115200 * 0xFFFFFFFF →
    let s := State.resetWith c
    s.cfg = c ∧ s.blk.ie = false ∧ s.blk.busy = false ∧ s.blk.done = false ∧ s.blk.cmdOverrun = false ∧
    s.blk.err.code = 0x0 ∧ s.blk.rxStatus = 0 ∧ s.blk.rxReserved = 0 ∧ s.blk.crc = 0xFFFF ∧
    s.blk.txLen = 0 ∧ s.blk.txFrameLen = 0 ∧ s.blk.rxLen = 0 ∧ s.blk.rxBodyLen = 0 ∧ s.blk.rxTrailer = 0 ∧
    s.blk.rxHeader = 0 ∧ s.blk.rxFooter = 0 ∧ s.blk.engState.code = 0 ∧ s.blk.engTimeout = 11520 ∧
    s.blk.uartDiv.toNat = max 1 ((c.fClkHz + 57600) / 115200) ∧
    s.blk.capturing = false ∧ s.blk.txi = 0 ∧ s.blk.rxn = 0 ∧ s.blk.ovf = false ∧ s.blk.idleTimer = .stopped ∧
    s.irq = false ∧ s.blk.txLine = true ∧ (∀ a, s.blk.byte a = Config.freeByte 0 a) ∧
    csrValue c s.blk 0x00 = 0 ∧ csrValue c s.blk 0x04 = 0 ∧ csrValue c s.blk 0x18 = 0 ∧
    csrValue c s.blk 0x08 = (if c.enginePresent then 1 else 0) ∧
    csrValue c s.blk 0x0C = BitVec.ofNat 32 c.txbufSize ∧ csrValue c s.blk 0x10 = BitVec.ofNat 32 c.rxbufSize

/-- R340, R342: reset may come at any time; in one step the block takes its reset values, an exchange is abandoned, and what
the device sends afterwards is discarded. The parameters do not change. -/
def Obligations.ResetAbandonsExchange : Prop :=
  ∀ s : State,
    Answers (runEvent .reset s) fun t =>
      t = { s with blk := { (State.resetWith s.cfg).blk with epoch := s.blk.epoch + 1 } } ∧
      t.irq = false ∧
      (s.host.collecting = none → ∀ b, runEvent (.lineByte b) t = .next t)

/-- The state right after reset is sound, whatever the parameters in R13's ranges. -/
def Obligations.ResetIsSound : Prop := ∀ c : Config, c.Legal → (State.resetWith c).Inv

/-- Every step keeps a sound state sound: the buffers' canonical form and their bounds, the WARL registers (R50), BUSY, DONE,
ENG_STATE and the hidden engine state in step with each other (R38, R52, R222, R226-R236), the markers (R48), and the
parameters (R39, R40, R341), which no step changes. -/
def Obligations.StepKeepsSoundness : Prop := ∀ s t : State, s.Inv → step s = .next t → t.Inv ∧ t.cfg = s.cfg

/-- Every event is taken, but for a command frame of fewer than three bytes, which is no frame (R120): from every state the
step answers next, or refuses it by name. -/
def Obligations.StepAlwaysAnswers : Prop :=
  ∀ s : State, Answers (step s) (fun _ => True) ∨
    (step s = .refused .notACommandFrame ∧
      ∃ bytes : Bytes, s.nextEvent = .transaction (.frame bytes) ∧ bytes.length < 3)

/-! ### Frames of the instructions that store nothing -/

/-- R55: the commands that touch no buffer leave every buffer byte, every register outside their rows of R55's table, the
parameters, the environment and the host's program as they were, accepted or dropped. -/
def Obligations.NonStoringCommandsFrame : Prop :=
  ∀ (s t : State) (ie bit0 : Bool) (low : BitVec 3) (b : Byte) (i : Instr),
    i ∈ [.nop ie, .crcInit ie, .parse ie, .check ie, .reserved67 ie bit0, .reserved8F ie low, .crcUpdate b] →
    exec i s = .next t →
    sameOutside s t ∧ sameProgram s t ∧ (∀ a, t.blk.byte a = s.blk.byte a) ∧
    t.blk = { s.blk with
      ie := t.blk.ie, done := t.blk.done, cmdOverrun := t.blk.cmdOverrun, err := t.blk.err, crc := t.blk.crc
      rxStatus := t.blk.rxStatus, rxReserved := t.blk.rxReserved, rxBodyLen := t.blk.rxBodyLen
      rxTrailer := t.blk.rxTrailer, rxHeader := t.blk.rxHeader, rxFooter := t.blk.rxFooter } ∧
    (i = .nop ie → t.blk = { s.blk with ie := ie }) ∧
    (i = .crcUpdate b → t.blk = { s.blk with crc := t.blk.crc }) ∧
    (i = .crcInit ie → t.blk = { s.blk with
      ie := ie, done := t.blk.done, cmdOverrun := t.blk.cmdOverrun, err := t.blk.err, crc := t.blk.crc }) ∧
    (i = .reserved67 ie bit0 ∨ i = .reserved8F ie low → t.blk = { s.blk with
      ie := ie, done := t.blk.done, cmdOverrun := t.blk.cmdOverrun, err := t.blk.err }) ∧
    (i = .parse ie → t.blk.ie = ie ∧ t.blk.crc = s.blk.crc) ∧
    (i = .check ie → t.blk = { s.blk with
      ie := ie, done := t.blk.done, cmdOverrun := t.blk.cmdOverrun, err := t.blk.err, crc := t.blk.crc
      rxTrailer := t.blk.rxTrailer })

/-! ### Host procedures -/

/-- The four wire opcodes and the requests with an accepted path (R128, R265, R267, R269, R272, R276): on a free host each
begins the exchange of its opcode and payload, from its first write on; only the host moves. ListDir's path defaults to
the root. What a frame given on its own begins is assumption 12; an Upload request is statement ChunksAreSentInOrder. -/
def Obligations.WireOpcodesBeginTheirExchange : Prop :=
  ∀ s : State, s.host.free = true →
    (∀ (p chunk : Bytes) (flag : Byte),
      Answers (exec (.listDir p) s) (fun t => exchanging t .listDir 0x03 p ∧ onlyHost s t) ∧
      Answers (exec (.download p) s) (fun t => exchanging t (.download .display) 0x05 p ∧ onlyHost s t) ∧
      Answers (exec (.upload p flag chunk) s) (fun t =>
        exchanging t (.upload ⟨p, true, 0, chunk, [], chunk.length⟩) 0x06 (p ++ [0x00, flag] ++ chunk) ∧ onlyHost s t) ∧
      Answers (exec (.remove p) s) fun t => exchanging t .remove 0x07 p ∧ onlyHost s t) ∧
    (∀ path ∈ [none, some []], Answers (runEvent (.request (.listDir path)) s) fun t =>
      exchanging t .listDir 0x03 [0x2F, 0x66, 0x6C, 0x61, 0x73, 0x68] ∧ onlyHost s t) ∧
    ∀ (u p : Bytes) (dest : Dest), normalizePath u = .ok p →
      Answers (runEvent (.request (.listDir (some u))) s) (fun t => exchanging t .listDir 0x03 p ∧ onlyHost s t) ∧
      Answers (runEvent (.request (.download u dest)) s) (fun t => exchanging t (.download dest) 0x05 p ∧ onlyHost s t) ∧
      Answers (runEvent (.request (.remove u)) s) fun t => exchanging t .remove 0x07 p ∧ onlyHost s t

/-- R265, end to end: a host that runs an exchange over an idle block with the engine, against a device that answers with a
wrapped body of status 0, ends it with Ok(body), whether it polls or waits for irq; the line has carried exactly the encoded
frame. The way shows only in IE: `cmd XCHG` clears it, `cmdi XCHG` sets it. -/
def Obligations.ExchangeReturnsBody : Prop :=
  ∀ (s : State) (kind : TaskKind) (op reserved t0 t1 : Byte) (payload body : Bytes), ready s →
    payload.length + 3 ≤ s.cfg.txbufSize → body.length + 10 ≤ s.cfg.rxbufSize →
    Answers
      (play (.request (.send kind op payload) :: exchangeEvents payload (wrap 0x00 reserved body t0 t1) body) s)
      fun t => ∃ u : State, t = exchangeOk kind body u ∧
        u.env.lineOut = s.env.lineOut ++ encodeFrame op payload ∧ u.blk.busy = false ∧ u.blk.err = .none ∧
        u.blk.ie = s.host.useIrq

/-- R281, end to end: without the engine the host moves the bytes itself, and the exchange ends with the same Ok(body); its
transport has carried exactly the encoded frame. -/
def Obligations.ExchangeWithoutEngineReturnsBody : Prop :=
  ∀ (s : State) (kind : TaskKind) (op reserved t0 t1 : Byte) (payload body : Bytes),
    s.cfg.Legal → s.cfg.enginePresent = false → s.blk.busy = false → s.host.free = true →
    payload.length + 3 ≤ s.cfg.txbufSize → body.length + 10 ≤ s.cfg.rxbufSize →
    Answers
      (play (.request (.send kind op payload) ::
        exchangeEventsNoEngine payload (wrap 0x00 reserved body t0 t1) body) s)
      fun t => ∃ u : State, t = exchangeOk kind body u ∧
        u.env.lineOut = s.env.lineOut ++ encodeFrame op payload ∧ u.blk.err = .none

/-- R267, R268: ListDir, end to end, asked for with no path, an empty path or an accepted one: it ends with the segments of
the body between its commas, the empty ones left out. A ListDir frame given on its own ends the same way, which is the
model's choice (assumption 12). -/
def Obligations.ListDirListsEntries : Prop :=
  ∀ (s : State) (p body : Bytes) (reserved t0 t1 : Byte), ready s →
    p.length + 3 ≤ s.cfg.txbufSize → body.length + 10 ≤ s.cfg.rxbufSize →
    ∀ asked : Event,
      (asked = .request (.listDir none) ∧ p = [0x2F, 0x66, 0x6C, 0x61, 0x73, 0x68]) ∨
        (∃ u, asked = .request (.listDir (some u)) ∧ normalizePath u = .ok p) ∨
        asked = .transaction (encode (.listDir p)) →
      Answers (play (asked :: exchangeEvents p (wrap 0x00 reserved body t0 t1) body) s) fun t =>
        t.host.task = none ∧
        t.host.result = some (.listing ((body.splitOn 0x2C).filter fun seg => !seg.isEmpty)) ∧
        t.env.lineOut = s.env.lineOut ++ encodeFrame 0x03 p

/-- R269, R276: what Download and Remove make of Ok(body). -/
def Obligations.DownloadAndRemoveJudgeBody : Prop :=
  ∀ (s : State) (body : Bytes),
    (exchangeOk (.download (.file true)) body s).host.result = some (.saved body) ∧
    (exchangeOk (.download (.file false)) body s).host.result = some (.failed .localIOError) ∧
    (exchangeOk (.download .display) body s).host.result =
      some (if validText body then .displayed body else .failed .notText) ∧
    ((∃ x y, body = x ++ [0x6F, 0x6B] ++ y) → (exchangeOk .remove body s).host.result = some .removed) ∧
    ((¬∃ x y, body = x ++ [0x6F, 0x6B] ++ y) →
      (exchangeOk .remove body s).host.result = some (.failed (.unexpectedResult body)))

/-- R266: the host error for each ERR a failed exchange can leave, as the host's read of STATUS takes it: the operation is
over, with that error. NONE and DEVICE_ERROR go on to read the body, and at DEVICE_ERROR the operation ends with the body as
its message: from a read of STATUS that finds it, over the reads of RX_BODY_LEN and of each byte, to DeviceError(body). -/
def Obligations.ErrorCodesMapToHostErrors : Prop :=
  (∀ (s : State) (v : Word) (kind : TaskKind) (e : ErrCode), v.extractLsb' 4 4 = e.code →
    let t := statusRead kind v s
    (e = .none → t.host.task = some ⟨kind, .readBodyLen false⟩ ∧ onlyHost s t) ∧
    (e = .deviceError → t.host.task = some ⟨kind, .readBodyLen true⟩ ∧ onlyHost s t) ∧
    (e ∈ [.malformedLength, .malformedHeader, .malformedFooter, .malformedShort] → failedWith kind .malformedFrame s t) ∧
    (e = .noResponse → failedWith kind .noResponse s t) ∧
    (e ∈ [.txLength, .rxLength, .rxOverflow, .illegalCmd] → failedWith kind (.exchangeFailed e.code) s t)) ∧
  (∀ (s : State) (kind : TaskKind) (body : Bytes), failedWith kind (.deviceError body) s (bodyRead kind true body s)) ∧
  ∀ (s : State) (kind : TaskKind), s.cfg.Legal → s.blk.busy = false → s.blk.err = .deviceError →
    s.blk.rxBodyLen.toNat + 5 ≤ s.cfg.rxbufSize → s.host.task = some ⟨kind, .readStatus⟩ →
    Answers (play (List.replicate (s.blk.rxBodyLen.toNat + 2) .hostTurn) s)
      (failedWith kind (.deviceError (s.blk.rxFrom 5 s.blk.rxBodyLen.toNat)) s)

/-- R80, R82: the block answers at BASE plus the block-relative address, for its 128 KiB, and at no other address: an access
that starts at another is the platform's, and that nothing of the state then changes, the last response among it, is the
model's choice (assumption 28). -/
def Obligations.BlockAnswersAtBase : Prop :=
  ∀ (s : State) (a : Access),
    (a.off < 0x20000 → runEvent (.platformAccess { a with off := s.cfg.base + a.off }) s = busAccess a s) ∧
    (a.off < s.cfg.base ∨ s.cfg.base + 0x20000 ≤ a.off → runEvent (.platformAccess a) s = .next s)

/-- R262: a normalized path is a SandboxedPath: it is the root or inside it by whole segments, cleaning it again changes
nothing, and a path that starts with a separator is never accepted; and R264's normative cases. -/
def Obligations.NormalizeIsSound : Prop :=
  (∀ u p : Bytes, normalizePath u = .ok p →
    (p = root ∨ ∃ q, p = root ++ slash :: q) ∧ clean p = p ∧ u.head? ≠ some slash) ∧
  normalizePath [0x70, 0x61, 0x74, 0x68] = .ok (root ++ [0x2F, 0x70, 0x61, 0x74, 0x68]) ∧
  normalizePath [0x2F] = .error .absolutePathRejected ∧
  normalizePath [0x2F, 0x72, 0x6F, 0x6F, 0x74] = .error .absolutePathRejected ∧
  normalizePath [0x2E, 0x2E, 0x2F] = .error .pathEscape ∧
  normalizePath [0x2E, 0x2F, 0x70, 0x61, 0x74, 0x68, 0x2F, 0x2E, 0x2F, 0x74, 0x6F, 0x2F, 0x2E, 0x2E, 0x2F, 0x2E, 0x2E, 0x2F,
      0x6F, 0x74, 0x68, 0x65, 0x72, 0x2F] = .ok (root ++ [0x2F, 0x6F, 0x74, 0x68, 0x65, 0x72]) ∧
  normalizePath [] = .ok root ∧
  normalizePath [0x2E, 0x2E] = .error .pathEscape ∧
  normalizePath [0x2E, 0x2E, 0x2F, 0x66, 0x6C, 0x61, 0x73, 0x68, 0x79] = .error .pathEscape

/-- R267, R269, R276, R270: what a rejected path does on a free host. ListDir succeeds with no entries; the others fail with
the sandbox's error, an Upload also with PathTooLong for a path of more than 39 bytes and LocalIOError for a source that
cannot be read, in this order; nothing is sent and the block is untouched. What an accepted path begins is said by
WireOpcodesBeginTheirExchange and ChunksAreSentInOrder. -/
def Obligations.RejectedPathsSendNothing : Prop :=
  ∀ (s : State) (u : Bytes) (dest : Dest) (src : Option Bytes), s.host.free = true →
    (∀ e, normalizePath u = .error e →
      (u ≠ [] → Answers (runEvent (.request (.listDir (some u))) s) fun t =>
        t.host.task = none ∧ t.host.result = some (.listing []) ∧ t.blk = s.blk ∧ sameOutside s t) ∧
      ∀ op ∈ [HostOp.download u dest, .upload src u, .remove u],
        Answers (runEvent (.request op) s) fun t =>
          t.host.task = none ∧ t.blk = s.blk ∧ sameOutside s t ∧
          t.host.result = some (.failed
            (match e with
              | .absolutePathRejected => HostError.absolutePathRejected
              | .pathEscape => HostError.pathEscape))) ∧
    (∀ p, normalizePath u = .ok p → 39 < p.length →
      Answers (runEvent (.request (.upload src u)) s) fun t =>
        t.host.task = none ∧ t.host.result = some (.failed .pathTooLong) ∧ t.blk = s.blk ∧ sameOutside s t) ∧
    (∀ p, normalizePath u = .ok p → p.length ≤ 39 → src = none →
      Answers (runEvent (.request (.upload src u)) s) fun t =>
        t.host.task = none ∧ t.host.result = some (.failed .localIOError) ∧ t.blk = s.blk ∧ sameOutside s t)

/-- R270, R271, R272, R277: an Upload whose path and source are accepted begins with the exchange of its first 256 bytes,
flagged 0x01, from a session in which nothing is acknowledged; an empty source sends nothing and succeeds. Each later chunk's
exchange carries the session's next 256 bytes (or what is left), with flag 0x01 for the first chunk only; the bytes still to
send are the rest. -/
def Obligations.ChunksAreSentInOrder : Prop :=
  (∀ (s : State) (user p data : Bytes), s.host.free = true → normalizePath user = .ok p → p.length ≤ 39 →
    (data ≠ [] → Answers (runEvent (.request (.upload (some data) user)) s) fun t =>
      exchanging t (.upload (firstChunk p data)) 0x06 (p ++ [0x00, 0x01] ++ data.take 256) ∧ onlyHost s t) ∧
    Answers (runEvent (.request (.upload (some []) user)) s) fun t =>
      t.host.task = none ∧ t.host.result = some (.uploaded 0) ∧ onlyHost s t) ∧
  ∀ (s : State) (u : Session),
    let chunk := u.rest.take 256
    exchanging (sendChunk u s)
      (.upload ⟨u.remotePath, true, u.bytesSent, chunk, u.rest.drop 256, u.total⟩) 0x06
      (u.remotePath ++ [0x00, if u.firstChunkSent then 0x00 else 0x01] ++ chunk) ∧
    chunk ++ u.rest.drop 256 = u.rest ∧ (u.rest ≠ [] → chunk ≠ [] ∧ chunk.length ≤ 256) ∧ onlyHost s (sendChunk u s)

/-- R273, R274, R275: an acknowledgement that contains "done" advances bytesSent by the chunk's length, reports progress, and
begins the exchange of the next chunk or ends the upload with success; any other body, or an error, ends the upload with the
bytes acknowledged before it, and no later chunk is sent. bytesSent starts at 0, and a session goes on accounting for the
whole source, so that a successful upload has sent all of it. -/
def Obligations.AcknowledgementsDriveUpload : Prop :=
  (∀ (s : State) (user p data : Bytes), s.host.free = true → normalizePath user = .ok p → p.length ≤ 39 → data ≠ [] →
    Answers (runEvent (.request (.upload (some data) user)) s) fun t =>
      ∃ u : Session, t.host.task.map (·.kind) = some (.upload u) ∧ u.bytesSent = 0 ∧ u.total = data.length ∧ accounts u ∧
        t.host.progress = []) ∧
  ∀ (s : State) (u : Session) (body : Bytes) (e : HostError),
    let sent := u.bytesSent + u.chunk.length
    let next : Session := { u with
      bytesSent := sent, chunk := u.rest.take 256, rest := u.rest.drop 256, firstChunkSent := true }
    let t := exchangeOk (.upload u) body s
    ((∃ x y, body = x ++ [0x64, 0x6F, 0x6E, 0x65] ++ y) →
      t.host.progress = s.host.progress ++ [(sent, u.total)] ∧ onlyHost s t ∧
      (u.rest = [] → t.host.task = none ∧ t.host.result = some (.uploaded sent) ∧ (accounts u → sent = u.total)) ∧
      (u.rest ≠ [] →
        exchanging t (.upload next) 0x06
          (u.remotePath ++ [0x00, if u.firstChunkSent then 0x00 else 0x01] ++ u.rest.take 256) ∧
        (accounts u → accounts next))) ∧
    ((¬∃ x y, body = x ++ [0x64, 0x6F, 0x6E, 0x65] ++ y) →
      failedWith (.upload u) (.unexpectedResult body) s t ∧ t.host.progress = s.host.progress) ∧
    failedWith (.upload u) e s (exchangeError (.upload u) e s)

/-- R223, R233: a byte survives the UART character that carries it, a character starts with a low start bit and ends with a
high stop bit, and a character whose stop bit is low is discarded with no effect. -/
def Obligations.UartCarriesBytes : Prop :=
  (∀ b : Byte, uartByte (uartChar b) = some b ∧ (uartChar b).getLsbD 0 = false ∧ (uartChar b).getLsbD 9 = true ∧
    ∀ k < 8, (uartChar b).getLsbD (k + 1) = b.getLsbD k) ∧
  ∀ (s : State) (c : BitVec 10), c.getLsbD 9 = false → runEvent (.lineChar c) s = .next s
end

