-- ==== Sys2Proof/Laws/PerInstr.lean ====
section
/-!
SUPPORT. The statements about every instruction as syntax, one lemma a constructor. Family `TableRow`: what `encode` writes
is a word of the instruction's own row of spec/opcode_table.json.
-/
namespace Sys2Proof.Laws.TableRow
open Sys2Proof

/-- The three kinds of words the table numbers: a CTRL value, the offset of a register write, and a frame's byte 0. -/
inductive Kind where
  | ctrlValue
  | writeOffset
  | frameOpcode
  deriving DecidableEq, Repr

/-- A row of spec/opcode_table.json: what its words are, and its match and mask. -/
structure Row where
  kind  : Kind
  fixed : Nat
  mask  : Nat
  deriving DecidableEq, Repr

/-- The row of an instruction. -/
def row : Instr → Row
  | .nop _ => ⟨.ctrlValue, 0x0, 0xF⟩
  | .crcInit _ => ⟨.ctrlValue, 0x1, 0xF⟩
  | .build _ => ⟨.ctrlValue, 0x2, 0xF⟩
  | .parse _ => ⟨.ctrlValue, 0x3, 0xF⟩
  | .check _ => ⟨.ctrlValue, 0x4, 0xF⟩
  | .xchg _ => ⟨.ctrlValue, 0x5, 0xF⟩
  | .reserved67 _ _ => ⟨.ctrlValue, 0x6, 0xE⟩
  | .reserved8F _ _ => ⟨.ctrlValue, 0x8, 0x8⟩
  | .crcUpdate _ => ⟨.writeOffset, 0x18, 0x1FFFF⟩
  | .listDir _ => ⟨.frameOpcode, 0x03, 0xFF⟩
  | .download _ => ⟨.frameOpcode, 0x05, 0xFF⟩
  | .upload _ _ _ => ⟨.frameOpcode, 0x06, 0xFF⟩
  | .remove _ => ⟨.frameOpcode, 0x07, 0xFF⟩

/-- The number the table gives a packet, with the kind of word it is. -/
def number : Packet → Option (Kind × Nat)
  | .bus ⟨.W, 4, 0x00, v⟩ => some (.ctrlValue, v.toNat)
  | .bus ⟨.W, 4, off, _⟩ => some (.writeOffset, off)
  | .bus _ => none
  | .frame [] => none
  | .frame (op :: _) => some (.frameOpcode, op.toNat)

/-- The encoding is a word of the instruction's row: the row's kind, and the row's fixed bits in it. -/
def Statement (i : Instr) : Prop := ∃ w, number (encode i) = some ((row i).kind, w) ∧ w &&& (row i).mask = (row i).fixed

theorem nop (ie : Bool) : Statement (.nop ie) := by cases ie <;> exact ⟨_, rfl, by decide⟩

theorem crcInit (ie : Bool) : Statement (.crcInit ie) := by cases ie <;> exact ⟨_, rfl, by decide⟩

theorem build (ie : Bool) : Statement (.build ie) := by cases ie <;> exact ⟨_, rfl, by decide⟩

theorem parse (ie : Bool) : Statement (.parse ie) := by cases ie <;> exact ⟨_, rfl, by decide⟩

theorem check (ie : Bool) : Statement (.check ie) := by cases ie <;> exact ⟨_, rfl, by decide⟩

theorem xchg (ie : Bool) : Statement (.xchg ie) := by cases ie <;> exact ⟨_, rfl, by decide⟩

theorem reserved67 (ie bit0 : Bool) : Statement (.reserved67 ie bit0) := by
  cases ie <;> cases bit0 <;> exact ⟨_, rfl, by decide⟩

theorem reserved8F (ie : Bool) (low : BitVec 3) : Statement (.reserved8F ie low) := by
  refine ⟨_, rfl, ?_⟩
  revert ie low
  decide

theorem crcUpdate (data : Byte) : Statement (.crcUpdate data) :=
  ⟨_, rfl, show (0x18 &&& 0x1FFFF : Nat) = 0x18 by decide⟩

theorem listDir (path : Bytes) : Statement (.listDir path) :=
  ⟨_, rfl, show (0x03 &&& 0xFF : Nat) = 0x03 by decide⟩

theorem download (path : Bytes) : Statement (.download path) :=
  ⟨_, rfl, show (0x05 &&& 0xFF : Nat) = 0x05 by decide⟩

theorem upload (path : Bytes) (flag : Byte) (chunk : Bytes) : Statement (.upload path flag chunk) :=
  ⟨_, rfl, show (0x06 &&& 0xFF : Nat) = 0x06 by decide⟩

theorem remove (path : Bytes) : Statement (.remove path) :=
  ⟨_, rfl, show (0x07 &&& 0xFF : Nat) = 0x07 by decide⟩

end Sys2Proof.Laws.TableRow
end

