-- ==== Sys2Proof/Tests/Slice0.lean ====
section
/-!
SUPPORT. The model's own tests. Expected values come from spec/95_test_vectors.md (named by their ids) or are worked out by
hand from the rules named; no test proves an obligation. The `test_witness_…` theorems show, for each obligation that has
hypotheses, a state and operands that meet all of them together, its clauses at the ends of their ranges.
-/
namespace Sys2Proof.Tests
open Sys2Proof Sys2Proof.Machine Sys2Proof.Claims

/-! ### Helpers -/

/-- The default sizes, with the engine (the start of the vectors of 95_test_vectors.md). -/
def cfg : Config := ⟨0x40000000, 512, 4096, true, 48000000⟩

/-- The same without the engine. -/
def cfgBare : Config := { cfg with enginePresent := false }

/-- The same with the smallest RXBUF. -/
def cfgSmall : Config := { cfg with rxbufSize := 16 }

/-- The reset state of the vectors. -/
def quiet : State := State.resetWith cfg

/-- The same with a host that waits for irq. -/
def quietIrq : State := { quiet with host := { quiet.host with useIrq := true } }

/-- A state with another block. -/
def on (s : State) (f : Block → Block) : State := s.setBlk (f s.blk)

/-- Bytes placed from an address on. -/
def place (a : Nat) : Bytes → Block → Block
  | [], b => b
  | x :: rest, b => place (a + 1) rest (b.poke a x)

/-- The opcode and payload in TXBUF, TX_LEN set. -/
def withTx (bytes : Bytes) (s : State) : State :=
  on s fun b => { place txBase bytes b with txLen := BitVec.ofNat 32 bytes.length }

/-- A frame in RXBUF, RX_LEN set. -/
def withRx (bytes : Bytes) (s : State) : State :=
  on s fun b => { place rxBase bytes b with rxLen := BitVec.ofNat 32 bytes.length }

/-- A sound state in which the engine is sending a 9-byte frame and is at byte `i`. -/
def sending (i : Nat) : State :=
  on quiet fun b => { b with
    busy := true, engState := .frameSent, txLen := 7, txFrameLen := 9, txi := i, capturing := true }

/-- A sound state in which the engine awaits the response and has stored `n` bytes. -/
def awaiting (n : Nat) (full : Bool) : State :=
  on quiet fun b => { b with
    busy := true, engState := .awaitingResponse, txLen := 7, txFrameLen := 9, txi := 9, capturing := true, rxn := n
    ovf := full, idleTimer := .running }

/-- A host that is about to read STATUS after an exchange of `kind` in which the device answered status 0x01 with `body`. -/
def refusedByDevice (kind : TaskKind) (body : Bytes) : State :=
  let s := withRx (wrap 0x01 0x00 body 0 0) (State.resetWith cfgSmall)
  { s with blk := parse cfgSmall s.blk, host := { s.host with task := some ⟨kind, .readStatus⟩ } }

/-- What is read off the state an outcome leads to. -/
def see {α : Type} (o : Host.Outcome State Fault Refusal) (f : State → α) : Option α :=
  match o with
  | .next t => some (f t)
  | .fault _ => none
  | .refused _ => none

/-- 03 "/flash". -/
def listFlash : Bytes := [0x03, 0x2F, 0x66, 0x6C, 0x61, 0x73, 0x68]

/-- Its frame (S-ENC-1). -/
def listFlashFrame : Bytes := [0x03, 0x2F, 0x66, 0x6C, 0x61, 0x73, 0x68, 0xC7, 0x4F]

/-- "/flash/a.txt". -/
def aTxt : Bytes := [0x2F, 0x66, 0x6C, 0x61, 0x73, 0x68, 0x2F, 0x61, 0x2E, 0x74, 0x78, 0x74]

/-- V-X-1's response, body "main.py". -/
def mainPy : Bytes :=
  [0xAA, 0xAB, 0xAA, 0x00, 0x00, 0x6D, 0x61, 0x69, 0x6E, 0x2E, 0x70, 0x79, 0x00, 0x00, 0xAB, 0xCC, 0xAB]

/-- "done" wrapped (V-PRS-1). -/
def doneFrame : Bytes := [0xAA, 0xAB, 0xAA, 0x00, 0x00, 0x64, 0x6F, 0x6E, 0x65, 0x00, 0x00, 0xAB, 0xCC, 0xAB]

/-- A CTRL write. -/
def ctrl (v : Word) : Event := .transaction (.bus ⟨.W, 4, 0x00, v⟩)

/-- `wr32`. -/
def w32 (off : Nat) (v : Word) : Event := .transaction (.bus ⟨.W, 4, off, v⟩)

/-! ### WellFormed refuses ill-formed terms -/

theorem test_wf_path_outside_root : (Instr.listDir [0x2F, 0x65, 0x74, 0x63]).wf = false := by decide

theorem test_wf_path_flashy : (Instr.download [0x2F, 0x66, 0x6C, 0x61, 0x73, 0x68, 0x79]).wf = false := by decide

theorem test_wf_path_not_clean :
    (Instr.remove [0x2F, 0x66, 0x6C, 0x61, 0x73, 0x68, 0x2F, 0x2E, 0x2E]).wf = false := by decide

theorem test_wf_upload_path_empty : (Instr.upload [] 0x01 []).wf = false := by decide

theorem test_wf_upload_path_40_bytes :
    (Instr.upload (root ++ slash :: List.replicate 33 0x61) 0x01 []).wf = false ∧
    (Instr.upload (root ++ slash :: List.replicate 32 0x61) 0x01 []).wf = true := by decide +kernel

theorem test_wf_upload_path_with_zero :
    (Instr.upload [0x2F, 0x66, 0x6C, 0x61, 0x73, 0x68, 0x2F, 0x00] 0x01 []).wf = false := by decide

theorem test_wf_upload_flag : (Instr.upload aTxt 0x02 []).wf = false := by decide

theorem test_wf_upload_chunk_257 :
    (Instr.upload aTxt 0x00 (List.replicate 257 0)).wf = false ∧
    (Instr.upload aTxt 0x00 (List.replicate 256 0)).wf = true := by decide +kernel

theorem test_wf_access_width : (Access.mk .W 2 0 0).wf = false := by decide

theorem test_wf_access_address : (Access.mk .R 1 0x20000 0).wf = false ∧ (Access.mk .R 1 0x1FFFF 0).wf = true := by decide

/-! ### Decoding, each word written out from the encodings of R110-R112 and R120-R129 -/

theorem test_decode_nop : decode (.bus ⟨.W, 4, 0x00000, 0x00000100⟩) = .ok (.nop true) := by decide

theorem test_decode_crcInit : decode (.bus ⟨.W, 4, 0x00000, 0x00000101⟩) = .ok (.crcInit true) := by decide

theorem test_decode_build : decode (.bus ⟨.W, 4, 0x00000, 0x00000002⟩) = .ok (.build false) := by decide

theorem test_decode_parse : decode (.bus ⟨.W, 4, 0x00000, 0x00000003⟩) = .ok (.parse false) := by decide

theorem test_decode_check : decode (.bus ⟨.W, 4, 0x00000, 0x00000104⟩) = .ok (.check true) := by decide

theorem test_decode_xchg : decode (.bus ⟨.W, 4, 0x00000, 0xFFFFFEF5⟩) = .ok (.xchg false) := by decide

theorem test_decode_reserved67 :
    decode (.bus ⟨.W, 4, 0x00000, 0x00000006⟩) = .ok (.reserved67 false false) ∧
    decode (.bus ⟨.W, 4, 0x00000, 0x00000107⟩) = .ok (.reserved67 true true) := by decide

theorem test_decode_reserved8F :
    decode (.bus ⟨.W, 4, 0x00000, 0x00000008⟩) = .ok (.reserved8F false 0) ∧
    decode (.bus ⟨.W, 4, 0x00000, 0x0000010F⟩) = .ok (.reserved8F true 7) := by decide

/-- V-CRCR-3's word: bits [31:8] are ignored. -/
theorem test_decode_crcUpdate : decode (.bus ⟨.W, 4, 0x00018, 0xFFFFFF31⟩) = .ok (.crcUpdate 0x31) := by decide

/-- S-ENC-1's frame. -/
theorem test_decode_listDir : decode (.frame listFlashFrame) = .ok (.listDir root) := by decide

/-- V-BLD-3's frame. -/
theorem test_decode_download :
    decode (.frame [0x05, 0x2F, 0x66, 0x6C, 0x61, 0x73, 0x68, 0x2F, 0x6D, 0x61, 0x69, 0x6E, 0x2E, 0x70, 0x79, 0x9B, 0x46]) =
      .ok (.download [0x2F, 0x66, 0x6C, 0x61, 0x73, 0x68, 0x2F, 0x6D, 0x61, 0x69, 0x6E, 0x2E, 0x70, 0x79]) := by decide

/-- V-UP-1's frame. -/
theorem test_decode_upload :
    decode (.frame (0x06 :: aTxt ++ [0x00, 0x01, 0x68, 0x69, 0x86, 0x70])) = .ok (.upload aTxt 0x01 [0x68, 0x69]) := by
  decide

/-- V-RM-1's frame. -/
theorem test_decode_remove :
    decode (.frame [0x07, 0x2F, 0x66, 0x6C, 0x61, 0x73, 0x68, 0x2F, 0x78, 0x70, 0x5B]) =
      .ok (.remove [0x2F, 0x66, 0x6C, 0x61, 0x73, 0x68, 0x2F, 0x78]) := by decide

/-- What is no instruction is rejected by name. -/
theorem test_decode_rejects :
    decode (.bus ⟨.R, 4, 0x00, 0⟩) = .error .notAWrite ∧ decode (.bus ⟨.W, 1, 0x00, 2⟩) = .error .notAWordWrite ∧
    decode (.bus ⟨.W, 4, 0x1C, 2⟩) = .error .notACommandRegister ∧ decode (.frame [0x03, 0x00]) = .error .shortFrame ∧
    decode (.frame [0x04, 0x00, 0x00]) = .error .unknownOpcode ∧
    decode (.frame [0x06, 0x2F, 0x00, 0x00, 0x00]) = .error .uploadLayout := by decide

/-- The opcode table's numbers. -/
theorem test_decodeTableWord :
    decodeTableWord 8 0x02 = some (.build false) ∧ decodeTableWord 8 0x0F = some (.reserved8F false 7) ∧
    decodeTableWord 24 0x18 = some (.crcUpdate 0) ∧ decodeTableWord 8 0x03 = some (.listDir [0, 0]) ∧
    decodeTableWord 32 0x103 = some (.parse true) ∧ decodeTableWord 8 0x06 = some (.upload [] 0 []) := by decide

/-- The word placed by `withFetchWord` is the very next step. -/
theorem test_withFetchWord :
    see (step (State.reset.withFetchWord 8 0x0F)) (fun t => (t.blk.err, t.blk.done)) = some (.illegalCmd, true) := by
  decide +kernel

/-! ### The instructions, at most two tests each -/

/-- V-NOP-1. -/
theorem test_nop_sets_ie_only :
    see (exec (.nop true) (on quiet fun b => { b with done := true, err := .crcMismatch }))
      (fun t => (t.blk.ie, t.blk.done, t.blk.err, t.irq)) = some (true, true, .crcMismatch, true) := by decide +kernel

/-- R180's example: allowed while BUSY = 1, never an overrun. -/
theorem test_nop_while_busy :
    see (exec (.nop true) (sending 0)) (fun t => (t.blk.ie, t.blk.cmdOverrun)) = some (true, false) := by decide +kernel

/-- V-CRCR-1. -/
theorem test_crcInit :
    see (play [w32 0x14 0x1234, ctrl 0x1] quiet) (fun t => (t.blk.crc, t.blk.statusWord)) =
      some (0xFFFF, 0x00000002) := by decide +kernel

/-- V-I-1. -/
theorem test_crcInit_irq : see (play [ctrl 0x101] quiet) State.irq = some true := by decide +kernel

/-- P1: "123456789" byte by byte. -/
theorem test_crcUpdate :
    see (play (ctrl 0x1 :: [0x31, 0x32, 0x33, 0x34, 0x35, 0x36, 0x37, 0x38, 0x39].map (w32 0x18)) quiet)
      (fun t => (t.blk.crc, t.blk.statusWord)) = some (0x4B37, 0x00000002) := by decide +kernel

/-- V-CRCR-8: a bus error while BUSY = 1, CRC unchanged. -/
theorem test_crcUpdate_busy :
    see (play [w32 0x18 0x31] (sending 0)) (fun t => (t.host.response, t.blk.crc)) =
      some (.fault (.busError 0x18), 0xFFFF) := by decide +kernel

/-- V-BLD-1 and V-BLD-9: CRC's old value is not used. -/
theorem test_build :
    see (exec (.build false) (on (withTx listFlash quiet) fun b => { b with crc := 0x1234 }))
      (fun t => (t.blk.txFrom 0 9, t.blk.txFrameLen, t.blk.crc, t.blk.statusWord)) =
      some (listFlashFrame, 9, 0xC74F, 0x00000002) := by decide +kernel

/-- V-BLD-8: TX_LEN + 2 does not wrap. -/
theorem test_build_too_long :
    see (exec (.build false) (on quiet fun b => { b with txLen := 0xFFFFFFFF, txFrameLen := 9 }))
      (fun t => (t.blk.err, t.blk.txFrameLen, t.blk.crc)) = some (.txLength, 0, 0xFFFF) := by decide +kernel

/-- V-CHK-1. -/
theorem test_check :
    see (exec (.check false) (withRx listFlashFrame quiet)) (fun t => (t.blk.err, t.blk.crc, t.blk.rxTrailer)) =
      some (.none, 0xC74F, 0xC74F) := by decide +kernel

/-- V-CHK-2. -/
theorem test_check_mismatch :
    see (exec (.check false) (withRx (listFlash ++ [0xC7, 0x4E]) quiet))
      (fun t => (t.blk.statusWord, t.blk.crc, t.blk.rxTrailer)) = some (0x00000062, 0xC74F, 0xC74E) := by decide +kernel

/-- V-PRS-11: the markers inside the body, a nonzero reserved byte and trailer. -/
theorem test_parse :
    see (exec (.parse false) (withRx [0xAA, 0xAB, 0xAA, 0x00, 0x5A, 0xAA, 0xAB, 0xAA, 0xAB, 0xCC, 0xAB, 0x12, 0x34, 0xAB,
        0xCC, 0xAB] quiet))
      (fun t => (t.blk.statusWord, t.blk.rxBodyLen, t.blk.rxTrailer, t.blk.rxHeader, t.blk.rxFooter)) =
      some (0x005A0002, 6, 0x1234, 0xAAABAA, 0xABCCAB) := by decide +kernel

/-- P4's end: the second PARSE fails on the footer and zeroes what the first extracted. -/
theorem test_parse_failure_zeroes :
    see (play [ctrl 0x3, w32 0x24 21, ctrl 0x3] (withRx [0xAA, 0xAB, 0xAA, 0x01, 0x00, 0x6E, 0x6F, 0x20, 0x73, 0x75, 0x63,
        0x68, 0x20, 0x66, 0x69, 0x6C, 0x65, 0x00, 0x00, 0xAB, 0xCC, 0xAB] quiet))
      (fun t => (t.blk.statusWord, t.blk.rxBodyLen, t.blk.rxHeader)) = some (0x00000032, 0, 0) := by decide +kernel

/-- V-X-1: a whole exchange. -/
theorem test_xchg :
    see (play (ctrl 0x5 :: List.replicate 9 .engineTx ++ mainPy.map .lineByte ++ [.lineIdle]) (withTx listFlash quiet))
      (fun t => (t.env.lineOut, t.blk.rxLen, t.blk.rxBodyLen, t.blk.statusWord, t.blk.engState)) =
      some (listFlashFrame, 17, 7, 0x00000002, .decoded) := by decide +kernel

/-- V-X-4: the 17-byte response with RXBUF_SIZE = 16. -/
theorem test_xchg_overflow :
    see (play (ctrl 0x5 :: List.replicate 9 .engineTx ++ mainPy.map .lineByte ++ [.lineIdle])
        (withTx listFlash (State.resetWith cfgSmall)))
      (fun t => (t.blk.rxFrom 0 16, t.blk.rxLen, t.blk.err, t.blk.engState)) =
      some (mainPy.take 16, 16, .rxOverflow, .failed) := by decide +kernel

/-- R181. -/
theorem test_reserved67 :
    see (exec (.reserved67 false true) quiet) (fun t => t.blk.statusWord) = some 0x000000B2 := by decide +kernel

/-- V-ILL-1, and V-X-11: dropped while BUSY = 1. -/
theorem test_reserved8F :
    see (play [ctrl 0xF] quiet) (fun t => t.blk.statusWord) = some 0x000000B2 ∧
    see (play [ctrl 0xF] (sending 0)) (fun t => (t.blk.err, t.blk.done, t.blk.cmdOverrun)) = some (.none, false, true) := by
  decide +kernel

/-- V-LD-2 over P3's device: the frame, and the entries of "main.py,lib,". -/
theorem test_listDir :
    see (play (.transaction (.frame listFlashFrame) ::
        exchangeEvents root (wrap 0 0 [0x6D, 0x61, 0x69, 0x6E, 0x2E, 0x70, 0x79, 0x2C, 0x6C, 0x69, 0x62, 0x2C] 0 0)
          [0x6D, 0x61, 0x69, 0x6E, 0x2E, 0x70, 0x79, 0x2C, 0x6C, 0x69, 0x62, 0x2C]) quiet)
      (fun t => (t.env.lineOut, t.host.result)) =
      some (listFlashFrame,
        some (.listing [[0x6D, 0x61, 0x69, 0x6E, 0x2E, 0x70, 0x79], [0x6C, 0x69, 0x62]])) := by decide +kernel

/-- V-LD-1: a path the sandbox rejects lists nothing, and sends nothing. -/
theorem test_listDir_rejected :
    see (play [.request (.listDir (some [0x2E, 0x2E, 0x2F]))] quiet) (fun t => (t.host.result, t.host.task, t.env.lineOut)) =
      some (some (.listing []), none, []) := by decide +kernel

/-- V-DL-2's device, on its own frame: DeviceError with the body. -/
theorem test_download_device_error :
    see (play (.transaction (encode (.download root)) ::
        exchangeEvents root (wrap 0x01 0 [0x6E, 0x6F] 0 0) [0x6E, 0x6F]) quiet)
      (fun t => t.host.result) = some (some (.failed (.deviceError [0x6E, 0x6F]))) := by decide +kernel

/-- V-DL-1. -/
theorem test_download_rejected :
    see (play [.request (.download [0x2F, 0x65, 0x74, 0x63] .display)] quiet) (fun t => t.host.result) =
      some (some (.failed .absolutePathRejected)) := by decide +kernel

/-- V-UP-1: Upload("hi", "a.txt") sends one frame and succeeds with 2 bytes. -/
theorem test_upload :
    see (play (.request (.upload (some [0x68, 0x69]) [0x61, 0x2E, 0x74, 0x78, 0x74]) ::
        exchangeEvents (uploadPayload aTxt 0x01 [0x68, 0x69]) doneFrame [0x64, 0x6F, 0x6E, 0x65]) quiet)
      (fun t => (t.env.lineOut, t.host.result, t.host.progress)) =
      some (0x06 :: aTxt ++ [0x00, 0x01, 0x68, 0x69, 0x86, 0x70], some (.uploaded 2), [(2, 2)]) := by decide +kernel

/-- V-UP-2. -/
theorem test_upload_empty :
    see (play [.request (.upload (some []) [0x65])] quiet) (fun t => (t.host.result, t.host.task, t.env.lineOut)) =
      some (some (.uploaded 0), none, []) := by decide +kernel

/-- V-RM-1 and V-RM-2. -/
theorem test_remove :
    see (play (.request (.remove [0x78]) ::
        exchangeEvents [0x2F, 0x66, 0x6C, 0x61, 0x73, 0x68, 0x2F, 0x78] (wrap 0 0 okText 0 0) okText) quiet)
      (fun t => (t.env.lineOut, t.host.result)) =
      some ([0x07, 0x2F, 0x66, 0x6C, 0x61, 0x73, 0x68, 0x2F, 0x78, 0x70, 0x5B], some .removed) := by decide +kernel

/-- V-RM-3: "OK" is not "ok". -/
theorem test_remove_case_sensitive :
    (exchangeOk .remove [0x4F, 0x4B] quiet).host.result = some (.failed (.unexpectedResult [0x4F, 0x4B])) := by
  decide +kernel

/-! ### The checksum, the bus and the sandbox -/

/-- S-CRC-1 to S-CRC-4 (the source's vectors, R156). -/
theorem test_crc16_vectors :
    crc16 [0x31, 0x32, 0x33, 0x34, 0x35, 0x36, 0x37, 0x38, 0x39, 0x30] = 0xC20A ∧
    crc16 [0x41, 0x42, 0x43, 0x44, 0x45, 0x46, 0x47] = 0x9E77 ∧
    crc16 [0x61, 0x62, 0x63, 0x64, 0x65, 0x66, 0x67] = 0xE9C2 ∧ crc16 (List.replicate 10 0x00) = 0x0770 := by
  decide +kernel

/-- V-CRC-10 and V-CRC-11. -/
theorem test_crcStep : crcStep 0 0 = 0 ∧ crcStep 0 1 = 0xC0C1 := by decide +kernel

/-- V-M-1: little-endian lanes. -/
theorem test_lanes :
    see (play [w32 0x01000 0x6C662F03, .transaction (.bus ⟨.R, 1, 0x01003, 0⟩)] quiet) (fun t => t.host.response) =
      some (.data 0x6C) := by decide +kernel

/-- V-M-2, V-M-4, V-M-5 and V-M-7: bus errors. -/
theorem test_bus_errors :
    (play [w32 0x01002 0x11223344] quiet |> (see · fun t => (t.host.response, t.blk.mem))) =
      some (.fault (.busError 0x01002), []) ∧
    see (play [w32 0x00100 1] quiet) (fun t => t.host.response) = some (.fault (.busError 0x00100)) ∧
    see (play [.transaction (.bus ⟨.W, 1, 0x01200, 1⟩)] quiet) (fun t => t.host.response) =
      some (.fault (.busError 0x01200)) ∧
    see (play [.transaction (.bus ⟨.R, 4, 0x10FFE, 0⟩)] quiet) (fun t => t.host.response) =
      some (.fault (.busError 0x10FFE)) := by decide +kernel

/-- V-M-8, V-M-9 and V-M-10. -/
theorem test_registers :
    see (play [w32 0x20 5, .transaction (.bus (rd32 0x20))] quiet) (fun t => t.host.response) = some (.data 0) ∧
    see (play [w32 0x44 0, .transaction (.bus (rd32 0x44))] quiet) (fun t => t.host.response) = some (.data 1) ∧
    see (play [.transaction (.bus (rd32 0x08))] quiet) (fun t => t.host.response) = some (.data 1) := by decide +kernel

/-- V-I-5. -/
theorem test_status_w1c :
    see (play [w32 0x04 0xFFFFFFFF] (on quiet fun b => { b with done := true, cmdOverrun := true, err := .crcMismatch }))
      (fun t => t.blk.statusWord) = some 0x00000060 := by decide +kernel

/-- V-X-13: reset during transmission. -/
theorem test_reset_during_exchange :
    see (play [.reset, .lineByte 0xAA] (sending 4)) (fun t => (t.blk.statusWord, t.blk.engState, t.blk.mem)) =
      some (0, .idle, []) := by decide +kernel

/-- S-SB-5, V-SB-3, V-SB-4 and V-SB-5. -/
theorem test_sandbox :
    normalizePath [0x2E, 0x2E, 0x2F, 0x66, 0x6C, 0x61, 0x73, 0x68, 0x79] = .error .pathEscape ∧
    normalizePath [0x61, 0x2F, 0x2E, 0x2E, 0x2F, 0x2E, 0x2E, 0x2F, 0x66, 0x6C, 0x61, 0x73, 0x68, 0x2F, 0x78] =
      .ok (root ++ [0x2F, 0x78]) ∧
    normalizePath [0x6C, 0x69, 0x62, 0x2F, 0x2F, 0x78, 0x2E, 0x70, 0x79] =
      .ok (root ++ [0x2F, 0x6C, 0x69, 0x62, 0x2F, 0x78, 0x2E, 0x70, 0x79]) := by decide

/-- R268's example, and valid text (D53): "é" is text, a lone continuation byte and an overlong form are not. -/
theorem test_bodies :
    listEntries [0x61, 0x2E, 0x70, 0x79, 0x2C, 0x2C, 0x6C, 0x69, 0x62, 0x2C] = [[0x61, 0x2E, 0x70, 0x79], [0x6C, 0x69, 0x62]] ∧
    validText [0xC3, 0xA9] = true ∧ validText [0x80] = false ∧ validText [0xC0, 0x80] = false := by decide

/-- R50: F_CLK_HZ / 115200 rounded, and at least 1 (C9). -/
theorem test_reset_divisor :
    resetDivisor { cfg with fClkHz := 48000000 } = 417 ∧ resetDivisor { cfg with fClkHz := 1 } = 1 ∧
    resetDivisor { cfg with fClkHz := 172799 } = 1 ∧ resetDivisor { cfg with fClkHz := 172800 } = 2 := by decide +kernel

/-! ### Witnesses: for each obligation with hypotheses, operands and states that meet all of them -/

theorem test_legal : cfg.Legal ∧ cfgBare.Legal ∧ cfgSmall.Legal ∧
    Config.Legal { cfg with txbufSize := 300, rxbufSize := 65536 } := by decide

theorem test_inv_quiet : quiet.Inv := by
  refine ⟨by decide, ?_⟩
  constructor <;> first | decide +kernel | (intro x hx; cases hx)

theorem test_inv_sending : (sending 0).Inv ∧ (sending 8).Inv := by
  refine ⟨⟨by decide, ?_⟩, ⟨by decide, ?_⟩⟩ <;>
    (constructor <;> first | decide +kernel | (intro x hx; cases hx))

theorem test_inv_awaiting : (awaiting 0 false).Inv := by
  refine ⟨by decide, ?_⟩
  constructor <;> first | decide +kernel | (intro x hx; cases hx)

/-- DecodeOfEncode: well-formed instructions of every shape, at the ends of Upload's ranges. -/
theorem test_witness_decodeOfEncode :
    (Instr.listDir root).wf = true ∧ (Instr.reserved8F true 7).wf = true ∧ (Instr.crcUpdate 0xFF).wf = true ∧
    (Instr.upload root 0x00 []).wf = true ∧
    (Instr.upload (root ++ slash :: List.replicate 32 0x61) 0x01 (List.replicate 256 0xFF)).wf = true := by decide +kernel

/-- StepRunsDecodedInstruction. -/
theorem test_witness_stepRunsDecoded :
    (quiet.withPacket (encode (.build true))).env.inputs = .transaction (encode (.build true)) :: [] ∧
    decode (encode (.build true)) = .ok (.build true) := ⟨rfl, by decide⟩

/-- StepsPlayInputs. -/
theorem test_witness_stepsPlayInputs : ∃ t, play [ctrl 0x1, .hostTurn] quiet = .next t := ⟨_, rfl⟩

/-- BUSY = 0 and BUSY = 1 (the statements about commands, buses and flags). -/
theorem test_witness_busy : quiet.blk.busy = false ∧ (sending 0).blk.busy = true := by decide

/-- CrcUpdatesComputeCrc16: two CRC_UPDATEs with a read, a PARSE and a byte-wide write between them. -/
theorem test_witness_crcUpdates : quiet.blk.busy = false ∧
    ∀ a ∈ ([⟨.W, 4, 0x18, 0x31⟩, ⟨.R, 4, 0x14, 0⟩, ⟨.W, 4, 0x00, 0x103⟩, ⟨.W, 1, 0x18, 0x55⟩, ⟨.W, 4, 0x18, 0x32⟩] : List Access),
      a.dir = .W → a.off ≠ 0x14 ∧ (a.off = 0x00 → a.data.extractLsb' 0 4 ∉ [0x1#4, 0x2#4, 0x4#4, 0x5#4]) := by decide

/-- ChecksumDetectsOneWrongByte. -/
theorem test_witness_oneWrongByte : (0x31 : Byte) ≠ 0x30 ∧ crc16 [0x31] ≠ crc16 [0x30] := by decide +kernel

/-- BuildMakesFrame, XchgAcceptance's second clause, and BuildWritesExactlyTwoBytes' first: TX_LEN at 1 and at 510. -/
theorem test_witness_buildSucceeds : ∀ n ∈ [1, 510],
    let s := on quiet fun b => { b with txLen := BitVec.ofNat 32 n }
    s.cfg.Legal ∧ s.cfg.enginePresent = true ∧ s.blk.busy = false ∧ s.blk.txLen.toNat ≠ 0 ∧
      s.blk.txLen.toNat + 2 ≤ s.cfg.txbufSize := by decide

/-- BuildWritesExactlyTwoBytes' and XchgAcceptance's failing clause: TX_LEN at 0, 511 and 0xFFFFFFFF. -/
theorem test_witness_buildFails : ∀ n ∈ [0, 511, 0xFFFFFFFF],
    let s := on quiet fun b => { b with txLen := BitVec.ofNat 32 n }
    s.blk.busy = false ∧ s.cfg.enginePresent = true ∧
      ¬(s.blk.txLen.toNat ≠ 0 ∧ s.blk.txLen.toNat + 2 ≤ s.cfg.txbufSize) := by decide

/-- BuildIsPure: two blocks that differ in CRC, and agree on what BUILD reads. -/
theorem test_witness_buildIsPure :
    let s := withTx listFlash quiet
    let s' := on s fun b => { b with crc := 0x1234 }
    s.cfg = s'.cfg ∧ s.blk.busy = false ∧ s'.blk.busy = false ∧ s.blk.txLen = s'.blk.txLen ∧
      (∀ i < s.blk.txLen.toNat, s.blk.txByte i = s'.blk.txByte i) ∧ s.blk.crc ≠ s'.blk.crc :=
  ⟨rfl, rfl, rfl, rfl, fun _ _ => rfl, by decide⟩

/-- CheckAcceptsExactlyEncodedFrames: the frame of V-BLD-1, copied into the RXBUF of another state. -/
theorem test_witness_checkAccepts :
    ∃ t, exec (.build false) (withTx listFlash quiet) = .next t ∧ t.blk.err = .none ∧
      (withRx listFlashFrame quiet).blk.busy = false ∧ (withRx listFlashFrame quiet).blk.rxLen = t.blk.txFrameLen ∧
      (withRx listFlashFrame quiet).blk.rxLen.toNat ≤ quiet.cfg.rxbufSize ∧
      (withRx listFlashFrame quiet).blk.rxFrom 0 9 = t.blk.txFrom 0 9 := by
  refine ⟨_, rfl, ?_⟩
  decide +kernel

/-- NopSetsIeAndReservedAreIllegal and CtrlWriteOrder: CTRL values whose CMD is 0, 1, 6 and 15; a block without the engine. -/
theorem test_witness_ctrlValues :
    (0xFFFFFEF0 : Word).extractLsb' 0 4 = 0x0#4 ∧ (0x101 : Word).extractLsb' 0 4 ≠ 0x0#4 ∧
    0x6 ≤ ((0x6 : Word).extractLsb' 0 4).toNat ∧ 0x6 ≤ ((0xFFFFFFFF : Word).extractLsb' 0 4).toNat ∧
    (State.resetWith cfgBare).cfg.enginePresent = false ∧ (State.resetWith cfgBare).blk.busy = false := by decide

/-- ParseRoundTrip: an empty body, and one that fills RXBUF (16 bytes). -/
theorem test_witness_parseRoundTrip :
    (let s := withRx (wrap 0x00 0x5A [] 0x12 0x34) quiet
     s.cfg.Legal ∧ s.blk.busy = false ∧ s.blk.rxLen.toNat = 0 + 10 ∧ 0 + 10 ≤ s.cfg.rxbufSize ∧
       s.blk.rxFrom 0 10 = wrap 0x00 0x5A [] 0x12 0x34) ∧
    (let s := withRx (wrap 0x00 0x00 [0xAA, 0xAB, 0xAA, 0xAB, 0xCC, 0xAB] 0 0) (State.resetWith cfgSmall)
     s.cfg.Legal ∧ s.blk.busy = false ∧ s.blk.rxLen.toNat = 6 + 10 ∧ 6 + 10 ≤ s.cfg.rxbufSize ∧
       s.blk.rxFrom 0 16 = wrap 0x00 0x00 [0xAA, 0xAB, 0xAA, 0xAB, 0xCC, 0xAB] 0 0) := by decide +kernel

/-- ParseReportsDeviceError: status 0x01 and 0xFF (V-PRS-14). -/
theorem test_witness_parseDeviceError : ∀ st ∈ [(0x01 : Byte), 0xFF],
    let s := withRx (wrap st 0 [] 0 0) quiet
    s.cfg.Legal ∧ s.blk.busy = false ∧ st ≠ 0x00 ∧ s.blk.rxLen.toNat = 0 + 10 ∧ 0 + 10 ≤ s.cfg.rxbufSize ∧
      s.blk.rxFrom 0 10 = wrap st 0 [] 0 0 := by decide +kernel

/-- ParseReportsFirstFailure: each clause at the end of its range (V-PRS-13, -3, -9, -10, -4, -7, -14, -8). -/
theorem test_witness_parseCodes :
    parseCode cfg (on quiet fun b => { b with rxLen := 4097 }).blk = .rxLength ∧
    parseCode cfg (on quiet fun b => { b with rxLen := 5 }).blk = .malformedLength ∧
    parseCode cfg (withRx (List.replicate 6 0) quiet).blk = .malformedHeader ∧
    parseCode cfg (withRx [0xAA, 0xAB, 0xAA, 0xAB, 0xCC, 0xAA] quiet).blk = .malformedFooter ∧
    parseCode cfg (withRx [0xAA, 0xAB, 0xAA, 0xAB, 0xCC, 0xAB] quiet).blk = .malformedShort ∧
    parseCode cfg (withRx [0xAA, 0xAB, 0xAA, 0x01, 0x00, 0x00, 0xAB, 0xCC, 0xAB] quiet).blk = .malformedShort ∧
    parseCode cfg (withRx (wrap 0xFF 0 [] 0 0) quiet).blk = .deviceError ∧
    parseCode cfg (withRx (wrap 0x00 0 [] 0 0) quiet).blk = .none := by decide +kernel

/-- ParseIsPure, second part: two blocks that agree on RX_LEN and the frame. -/
theorem test_witness_parseIsPure :
    let s := withRx doneFrame quiet
    let s' := on s fun b => { b with crc := 0, txLen := 9 }
    s.cfg = s'.cfg ∧ s.blk.busy = false ∧ s'.blk.busy = false ∧ s.blk.rxLen = s'.blk.rxLen ∧
      ∀ i < s.blk.rxLen.toNat, s.blk.rxByte i = s'.blk.rxByte i := ⟨rfl, rfl, rfl, rfl, fun _ _ => rfl⟩

/-- TrailerAndReservedNeverMatter: two frames that differ in just those three bytes, of 10 bytes. -/
theorem test_witness_trailerAndReserved :
    let s := withRx (wrap 0x00 0x00 [] 0x00 0x00) quiet
    let s' := withRx (wrap 0x00 0x5A [] 0x12 0x34) quiet
    s.cfg = s'.cfg ∧ s.blk.busy = false ∧ s'.blk.busy = false ∧ s.blk.rxLen = s'.blk.rxLen ∧ 10 ≤ s.blk.rxLen.toNat ∧
      (∀ i < s.blk.rxLen.toNat, i < 4 ∨ s.blk.rxLen.toNat - 3 ≤ i → s.blk.rxByte i = s'.blk.rxByte i) ∧ s.blk.rxByte 4 ≠ s'.blk.rxByte 4 := by decide +kernel

/-- TransmitSendsNextByte: not sending; the last byte; not the last byte. -/
theorem test_witness_transmit :
    (quiet.Inv ∧ quiet.blk.engState ≠ .frameSent) ∧
    ((sending 8).Inv ∧ (sending 8).blk.engState = .frameSent ∧ (sending 8).blk.txi + 1 = (sending 8).blk.txFrameLen.toNat) ∧
    ((sending 0).Inv ∧ (sending 0).blk.engState = .frameSent ∧ (sending 0).blk.txi + 1 < (sending 0).blk.txFrameLen.toNat) :=
  ⟨⟨test_inv_quiet, by decide⟩, ⟨test_inv_sending.2, by decide, by decide⟩,
    ⟨test_inv_sending.1, by decide, by decide⟩⟩

/-- ReceiveStoresOrDrops: not capturing; one place left; none left. -/
theorem test_witness_receive :
    (quiet.host.collecting = none ∧ quiet.blk.capturing = false) ∧
    ((awaiting 4095 false).host.collecting = none ∧ (awaiting 4095 false).blk.capturing = true ∧
      (awaiting 4095 false).blk.rxn < (awaiting 4095 false).cfg.rxbufSize) ∧
    ((awaiting 4096 false).host.collecting = none ∧ (awaiting 4096 false).blk.capturing = true ∧
      ¬(awaiting 4096 false).blk.rxn < (awaiting 4096 false).cfg.rxbufSize) := by decide

/-- IdleCompletesExchange: nothing stored, too much stored, one byte stored. -/
theorem test_witness_idle : ∀ s ∈ [awaiting 0 false, awaiting 4096 true, awaiting 1 false],
    s.host.collecting = none ∧ s.blk.capturing = true ∧ s.blk.engState = .awaitingResponse := by decide

/-- The three outcomes of IdleCompletesExchange, each with its code. -/
theorem test_idle_outcomes :
    see (runEvent .lineIdle (awaiting 0 false)) (fun t => (t.blk.err, t.blk.rxLen)) = some (.noResponse, 0) ∧
    see (runEvent .lineIdle (awaiting 4096 true)) (fun t => (t.blk.err, t.blk.rxLen)) = some (.rxOverflow, 4096) ∧
    see (runEvent .lineIdle (awaiting 1 false)) (fun t => (t.blk.err, t.blk.rxLen)) = some (.malformedLength, 1) := by
  decide +kernel

/-- EngStateMovesOnlyAsTabled (and BusyChangesOnlyWithExchange): a step of each row of R236's table. -/
theorem test_witness_engStateMoves :
    (quiet.withInputs [ctrl 0x5]).blk.engState ≠ .failed ∧
    see (step (quiet.withInputs [ctrl 0x5])) (fun t => t.blk.engState) = some .failed ∧
    see (step ((withTx listFlash quiet).withInputs [ctrl 0x5])) (fun t => (t.blk.engState, t.blk.busy)) =
      some (.frameSent, true) ∧
    see (step ((sending 8).withInputs [.engineTx])) (fun t => t.blk.engState) = some .awaitingResponse ∧
    see (step ((on (awaiting 14 false) (place rxBase doneFrame)).withInputs [.lineIdle]))
      (fun t => (t.blk.engState, t.blk.busy)) = some (.decoded, false) ∧
    see (step ((awaiting 0 false).withInputs [.lineIdle])) (fun t => t.blk.engState) = some .failed ∧
    see (step ((sending 0).withInputs [.reset])) (fun t => t.blk.engState) = some .idle := by decide +kernel

/-- The states those steps start from are sound. -/
theorem test_witness_sound : (quiet.withInputs [ctrl 0x5]).Inv ∧ ((sending 8).withInputs [.engineTx]).Inv ∧
    ((awaiting 0 false).withInputs [.lineIdle]).Inv :=
  ⟨test_inv_quiet, test_inv_sending.2, test_inv_awaiting⟩

/-- ExchangeCanRunForever. -/
theorem test_witness_runForever :
    (awaiting 0 false).host.collecting = none ∧ (awaiting 0 false).blk.busy = true ∧
    (awaiting 0 false).blk.capturing = true := by decide

/-- ExchangeSendsFrameAndParsesResponse. -/
theorem test_witness_exchange :
    let s := withTx listFlash quiet
    s.cfg.Legal ∧ s.cfg.enginePresent = true ∧ s.blk.busy = false ∧ s.host.collecting = none ∧ s.blk.txLen.toNat ≠ 0 ∧
      s.blk.txLen.toNat + 2 ≤ s.cfg.txbufSize ∧ mainPy ≠ [] ∧ mainPy.length ≤ s.cfg.rxbufSize := by decide +kernel

/-- BusErrorHasNoEffect. -/
theorem test_witness_busError :
    ∃ t, busAccess ⟨.W, 1, 0x10000, 0⟩ (sending 0) = .next t ∧ t.host.response = .fault (.busError 0x10000) :=
  ⟨_, rfl, by decide +kernel⟩

/-- BusErrorCauses: each cause at the end of its range, and the accesses next to them that get none. -/
theorem test_witness_busErrorCauses :
    (∀ a ∈ ([⟨.R, 1, 0x00100, 0⟩, ⟨.R, 1, 0x00FFF, 0⟩, ⟨.R, 1, 0x02000, 0⟩, ⟨.R, 1, 0x0FFFF, 0⟩, ⟨.R, 1, 0x20000, 0⟩,
        ⟨.R, 1, 0x01200, 0⟩, ⟨.R, 1, 0x01FFF, 0⟩, ⟨.R, 1, 0x11000, 0⟩, ⟨.R, 1, 0x1FFFF, 0⟩, ⟨.R, 1, 0x000FF, 0⟩,
        ⟨.R, 1, 0x00000, 0⟩, ⟨.W, 4, 0x00001, 0⟩, ⟨.R, 4, 0x011FD, 0⟩, ⟨.R, 2, 0x01000, 0⟩, ⟨.W, 8, 0x00000, 0⟩] : List Access),
      see (busAccess a quiet) (fun t => t.host.response) = some (.fault (.busError a.off))) ∧
    (∀ a ∈ ([⟨.W, 1, 0x01000, 0⟩, ⟨.W, 4, 0x10FFC, 0⟩, ⟨.W, 4, 0x14, 0⟩, ⟨.W, 4, 0x18, 0⟩, ⟨.W, 4, 0x1C, 0⟩, ⟨.W, 4, 0x24, 0⟩,
        ⟨.W, 4, 0x44, 0⟩, ⟨.W, 4, 0x48, 0⟩] : List Access),
      see (busAccess a (sending 0)) (fun t => t.host.response) = some (.fault (.busError a.off)) ∧
      see (busAccess a quiet) (fun t => t.host.response) = some .ok) ∧
    (∀ a ∈ ([⟨.W, 4, 0x00, 2⟩, ⟨.W, 4, 0x04, 6⟩, ⟨.W, 4, 0x20, 0⟩, ⟨.W, 4, 0xFC, 0⟩] : List Access),
      see (busAccess a (sending 0)) (fun t => t.host.response) = some .ok) := by decide +kernel

/-- BufferAccesses (its BUSY = 1 clause: `test_witness_busy`): the last byte of TXBUF, its last word, the last word of RXBUF, and words that get no
access: off their alignment, and (in a TXBUF of 302 bytes) not wholly inside. -/
theorem test_witness_bufferWrites :
    quiet.cfg.Legal ∧ quiet.blk.busy = false ∧ 511 < quiet.cfg.txbufSize ∧
    (508 % 4 = 0 ∧ 508 + 3 < quiet.cfg.txbufSize) ∧ (4092 % 4 = 0 ∧ 4092 + 3 < quiet.cfg.rxbufSize) ∧
    (1 < quiet.cfg.rxbufSize ∧ 1 % 4 ≠ 0) ∧ Config.Legal { cfg with txbufSize := 302 } ∧ (300 < 302 ∧ 302 ≤ 300 + 3) := by
  decide

/-- RegistersReadTheirValues and RegisterWrites: the first and the last offset, and a read-only one. -/
theorem test_witness_registers :
    (∀ off ∈ [0x00, 0x4C, 0xFC], off ≤ 0xFC ∧ off % 4 = 0) ∧
    ((sending 0).blk.busy = true ∧ 0x40 ∉ [0x04, 0x14, 0x20, 0x24, 0x28, 0x2C, 0x30, 0x34]) ∧
    (∀ off ∈ [0x08, 0x38, 0xFC], off ∉ [0x00, 0x04, 0x14, 0x18, 0x1C, 0x24, 0x44, 0x48]) ∧
    quiet.blk.busy = false ∧ quiet.cfg.enginePresent = true ∧ (State.resetWith cfgBare).cfg.enginePresent = false ∧
    (State.resetWith cfgBare).blk.busy = false := by decide

/-- IrqRisesWithCompletion. -/
theorem test_witness_irq : quiet.blk.busy = false ∧
    Instr.check true ∈ [.crcInit true, .build true, .parse true, .check true, .reserved67 true true, .reserved8F true 0] := by
  decide

/-- OverrunStaysUntilCleared: a step that clears it. -/
theorem test_witness_overrun :
    let s := (on quiet fun b => { b with cmdOverrun := true }).withInputs [w32 0x04 0x4]
    s.blk.cmdOverrun = true ∧ see (step s) (fun t => t.blk.cmdOverrun) = some false := by decide +kernel

/-- ExchangeInputsAreFrozen: a step during an exchange, which a write cannot disturb. -/
theorem test_witness_frozen :
    let s := (sending 0).withInputs [w32 0x1C 3]
    s.Inv ∧ s.blk.busy = true ∧ see (step s) (fun t => (t.blk.busy, t.blk.txLen)) = some (true, 7) :=
  ⟨test_inv_sending.1, by decide, by decide +kernel⟩

/-- FrameLengthWrittenOnlyByBuild: a BUILD that succeeds, one that fails, and reset. -/
theorem test_witness_frameLength :
    (withTx listFlash quiet).cfg.Legal ∧
    see (step ((withTx listFlash quiet).withInputs [ctrl 0x2])) (fun t => t.blk.txFrameLen) = some 9 ∧
    see (step ((on quiet fun b => { b with txFrameLen := 9 }).withInputs [ctrl 0x2])) (fun t => t.blk.txFrameLen) = some 0 ∧
    see (step ((sending 0).withInputs [.reset])) (fun t => t.blk.txFrameLen) = some 0 := by decide +kernel

/-- ResetValues and ResetIsSound. -/
theorem test_witness_reset : cfg.fClkHz < 115200 * 0xFFFFFFFF ∧ cfg.Legal ∧ quiet.host.collecting = none := by decide

/-- StepKeepsSoundness: a sound state and the state a step leads it to. -/
theorem test_witness_stepKeepsSoundness :
    ((awaiting 0 false).withInputs [.lineIdle]).Inv ∧ ∃ t, step ((awaiting 0 false).withInputs [.lineIdle]) = .next t :=
  ⟨test_inv_awaiting, _, rfl⟩

/-- StepAlwaysAnswers: both of its cases occur. -/
theorem test_witness_stepAnswers :
    (∃ t, step (quiet.withInputs [.transaction (.frame [0x04, 0x00, 0x00])]) = .next t) ∧
    step (quiet.withInputs [.transaction (.frame [0x04, 0x00])]) = .refused .notACommandFrame := ⟨⟨_, rfl⟩, rfl⟩

/-- NonStoringCommandsFrame: a command of the list, accepted. -/
theorem test_witness_nonStoring : ∃ t, exec (.parse true) (withRx doneFrame quiet) = .next t := ⟨_, rfl⟩

/-- The host procedures' statements: a host that is free, polling or waiting for irq, with the engine and without it, and room
for the frames. -/
theorem test_witness_hostFree :
    ready quiet ∧ ready quietIrq ∧ quietIrq.host.useIrq = true ∧ quiet.host.free = true ∧ root.length + 3 ≤ quiet.cfg.txbufSize ∧
    (List.replicate 509 (0 : Byte)).length + 3 ≤ quiet.cfg.txbufSize ∧ ([] : Bytes).length + 10 ≤ quiet.cfg.rxbufSize ∧
    (State.resetWith cfgBare).cfg.Legal ∧ (State.resetWith cfgBare).cfg.enginePresent = false ∧
    (State.resetWith cfgBare).blk.busy = false ∧ (State.resetWith cfgBare).host.free = true := by
  refine ⟨⟨by decide, by decide, by decide, by decide⟩, ⟨by decide, by decide, by decide, by decide⟩, ?_⟩
  decide +kernel

/-- DownloadAndRemoveJudgeBody and AcknowledgementsDriveUpload: bodies with and without the text, at its ends. -/
theorem test_witness_bodies :
    (∃ x y : Bytes, okText = x ++ [0x6F, 0x6B] ++ y) ∧ (∃ x y : Bytes, doneText = x ++ [0x64, 0x6F, 0x6E, 0x65] ++ y) ∧
    containsSeq okText [0x4F, 0x4B] = false ∧ containsSeq doneText [0x64, 0x6F, 0x6E] = false ∧
    containsSeq doneText [0x20, 0x64, 0x6F, 0x6E, 0x65, 0x21] = true :=
  ⟨⟨[], [], rfl⟩, ⟨[], [], rfl⟩, by decide, by decide, by decide⟩

/-- ErrorCodesMapToHostErrors, last clause: an empty message (V-PRS-14), and one whose frame fills RXBUF (16 bytes). -/
theorem test_witness_deviceErrorEnd : ∀ body ∈ [([] : Bytes), [0x6E, 0x6F, 0x20, 0x73, 0x75, 0x63]],
    let s := refusedByDevice .remove body
    s.cfg.Legal ∧ s.blk.busy = false ∧ s.blk.err = .deviceError ∧ s.blk.rxBodyLen.toNat = body.length ∧
      s.blk.rxBodyLen.toNat + 5 ≤ s.cfg.rxbufSize ∧ s.host.task = some ⟨.remove, .readStatus⟩ := by decide +kernel

/-- R265 and R266, as in V-DL-2: the message of DEVICE_ERROR is the body "no", read over four turns of the host. -/
theorem test_deviceError_message :
    see (play (List.replicate 4 .hostTurn) (refusedByDevice .remove [0x6E, 0x6F])) (fun t => (t.host.task, t.host.result)) =
      some (none, some (.failed (.deviceError [0x6E, 0x6F]))) := by decide +kernel

/-- ErrorCodesMapToHostErrors: a STATUS value for each of its clauses. -/
theorem test_witness_errorCodes :
    (0x00000002 : Word).extractLsb' 4 4 = ErrCode.none.code ∧ (0x00000152 : Word).extractLsb' 4 4 = ErrCode.deviceError.code ∧
    (0x00000032 : Word).extractLsb' 4 4 = ErrCode.malformedFooter.code ∧
    (0x000000A2 : Word).extractLsb' 4 4 = ErrCode.noResponse.code ∧
    (0x000000B2 : Word).extractLsb' 4 4 = ErrCode.illegalCmd.code := by decide

/-- BlockAnswersAtBase: the ends of the block's range, and the addresses next to them. -/
theorem test_witness_base :
    blockOffset cfg 0x40000000 = some 0 ∧ blockOffset cfg 0x4001FFFF = some 0x1FFFF ∧ blockOffset cfg 0x3FFFFFFF = none ∧
    blockOffset cfg 0x40020000 = none := by decide

/-- NormalizeIsSound and RejectedPathsSendNothing: paths accepted, and rejected in each way; a 40-byte and a 39-byte path. -/
theorem test_witness_paths :
    normalizePath [0x78] = .ok (root ++ [0x2F, 0x78]) ∧ normalizePath [0x2F] = .error .absolutePathRejected ∧
    normalizePath [0x2E, 0x2E] = .error .pathEscape ∧
    normalizePath (List.replicate 33 0x61) = .ok (root ++ slash :: List.replicate 33 0x61) ∧
    39 < (root ++ slash :: List.replicate 33 (0x61 : Byte)).length ∧
    normalizePath (List.replicate 32 0x61) = .ok (root ++ slash :: List.replicate 32 0x61) ∧
    (root ++ slash :: List.replicate 32 (0x61 : Byte)).length ≤ 39 := by decide +kernel

/-- ChunksAreSentInOrder and AcknowledgementsDriveUpload: sources of 256, 257 and 1 bytes (V-UP-6, V-UP-7), and their first
sessions, with and without bytes left; the accepted paths are those of `test_witness_paths`. -/
theorem test_witness_chunks :
    (∀ n ∈ [256, 257, 1], (List.replicate n (0 : Byte)) ≠ [] ∧ accounts (firstChunk root (List.replicate n 0))) ∧
    (firstChunk root (List.replicate 256 0)).rest = [] ∧ (firstChunk root (List.replicate 257 0)).rest ≠ [] := by
  simp only [accounts]
  decide +kernel

/-- WireOpcodesBeginTheirExchange and ListDirListsEntries: the default paths, and an accepted one (R264). -/
theorem test_witness_accepted :
    (none : Option Bytes) ∈ [none, some []] ∧ some [] ∈ [(none : Option Bytes), some []] ∧ normalizePath [] = .ok root ∧
    normalizePath [0x70, 0x61, 0x74, 0x68] = .ok (root ++ [0x2F, 0x70, 0x61, 0x74, 0x68]) ∧
    (root ++ [0x2F, 0x70, 0x61, 0x74, 0x68]).length + 3 ≤ quiet.cfg.txbufSize := by decide

/-- R280: a count of 2^32 bytes is no short count (R43's register holds 32 bits). -/
theorem test_lengthWord : lengthWord 7 = 7 ∧ lengthWord 0xFFFFFFFF = 0xFFFFFFFF ∧ lengthWord (2 ^ 32 + 1) = 0xFFFFFFFF := by
  decide +kernel

/-- R267's default, asked of a host that waits for irq: the exchange of 0x03 "/flash". -/
theorem test_listDir_default :
    see (runEvent (.request (.listDir none)) quietIrq) (fun t => t.host.task) =
      some (some ⟨.listDir, .issue
        (wrbytes txBase listFlash ++ [wr32 0x1C 7, wr32 0x04 0x6, wr32 0x00 0x105]) .awaitIrq⟩) := by decide +kernel

/-- UartCarriesBytes: a character whose stop bit is low. -/
theorem test_witness_framingError : (0b0011000010 : BitVec 10).getLsbD 9 = false := by decide

end Sys2Proof.Tests
end

section
/-!
Laws of the CTRL write, of accesses to the registers' window, and of the frame length.
-/
namespace Sys2Proof.Machine

/-! ### The CTRL write -/

/-- A CTRL write whose CMD is 0 is NOP (R180). -/
theorem exec_decodeCtrl_nop {v : Word} (h : v.extractLsb' 0 4 = 0x0#4) (s : State) :
    exec (decodeCtrl v) s = .next (s.wrote { s.blk with ie := v.getLsbD 8 }) := by
  simp [decodeCtrl, h, exec, execNop]

/-- A CTRL write with any other CMD issues the command of R110's table. -/
theorem exec_decodeCtrl_command {v : Word} (h : v.extractLsb' 0 4 ≠ 0x0#4) (s : State) :
    exec (decodeCtrl v) s = .next (s.issue (v.getLsbD 8) (Claims.commandBody (v.extractLsb' 0 4).toNat)) := by
  have hn : (v.extractLsb' 0 4).toNat ≠ 0 := fun h0 => h (BitVec.eq_of_toNat_eq h0)
  unfold decodeCtrl
  generalize (v.extractLsb' 0 4).toNat = n at hn ⊢
  match n with
  | 0 => contradiction
  | 1 | 2 | 3 | 4 | 5 | 6 | 7 | _ + 8 => rfl

/-! ### The registers' window -/

theorem windowOf_csr {a : Nat} (h : a ≤ 0xFF) : windowOf a = .csr := if_pos h

/-- No register answers an access that is not a 4-aligned 32-bit one (R83, R85, R87). -/
theorem memRead_csr_busError {a n : Nat} (ha : a ≤ 0xFF) (h : n ≠ 4 ∨ a % 4 ≠ 0) (s : State) :
    memRead a n s = s.busError a := by
  unfold memRead
  split
  · rfl
  next hshape =>
    have := (width_of_shape hshape).2
    simp only [windowOf_csr ha]
    rw [if_pos (by omega)]

/-- The same for a write. -/
theorem memWrite_csr_busError {a n : Nat} (ha : a ≤ 0xFF) (h : n ≠ 4 ∨ a % 4 ≠ 0) (v : Word) (s : State) :
    memWrite a n v s = s.busError a := by
  unfold memWrite
  split
  · rfl
  next hshape =>
    have := (width_of_shape hshape).2
    simp only [windowOf_csr ha]
    rw [if_pos (by omega)]

/-- CRC_DATA reads as 0, whatever BUSY is (R42). -/
theorem memRead_crcData (s : State) : memRead 0x18 4 s = s.respond (.data 0) := by
  simp [memRead, badShape, windowOf_csr, csrRead, unspecifiedWhileBusy, csrValue]

/-! ### CRC_UPDATE (R153) -/

theorem exec_crcUpdate_free {s : State} (h : s.blk.busy = false) (data : Byte) :
    exec (.crcUpdate data) s = .next (s.wrote (s.blk.updateCrc data)) := by
  simp [exec, execCrcUpdate, h]

theorem exec_crcUpdate_busy {s : State} (h : s.blk.busy = true) (data : Byte) :
    exec (.crcUpdate data) s = .next (s.busError 0x18) := by
  simp [exec, execCrcUpdate, h]

/-! ### The frame length (R44) -/

theorem txLengthOk_iff {c : Config} {b : Block} :
    txLengthOk c b = true ↔ b.txLen.toNat ≠ 0 ∧ b.txLen.toNat + 2 ≤ c.txbufSize := by
  simp [txLengthOk]

/-- A frame that passes BUILD's check has a length that the register holds. -/
theorem appendChecksum_txFrameLen_toNat {c : Config} {b : Block} (hc : c.Legal) (h : b.txLen.toNat + 2 ≤ c.txbufSize) :
    b.appendChecksum.txFrameLen.toNat = b.txLen.toNat + 2 := by
  obtain ⟨_, hmax, _⟩ := hc
  rw [Block.appendChecksum_txFrameLen, BitVec.toNat_ofNat, Nat.mod_eq_of_lt (by omega)]

/-- What the BUILD step of a block `b` leaves in `b'`, whether BUILD or XCHG performs it (R170, R221). -/
def Block.BuildStep (c : Config) (b b' : Block) : Prop :=
  if b.txLen.toNat ≠ 0 ∧ b.txLen.toNat + 2 ≤ c.txbufSize then
    b'.txFrameLen.toNat = b.txLen.toNat + 2 ∧ b'.crc = crc16 (b.txFrom 0 b.txLen.toNat) ∧
      (b'.err = .none ∨ b'.busy = true)
  else b'.txFrameLen = 0 ∧ b'.err = .txLength

/-- The BUILD step reads neither IE nor DONE, so that acceptance leaves its inputs alone. -/
theorem Block.buildStep_accepted {c : Config} {b b' : Block} {ie : Bool} :
    Block.BuildStep c { b with ie := ie, done := false } b' ↔ Block.BuildStep c b b' := Iff.rfl

/-- BUILD and XCHG branch on the one length check; only the parts of the two branches that R44 speaks of count. -/
theorem buildStep_ite {c : Config} {b pass fail : Block} (hc : c.Legal)
    (hlen : pass.txFrameLen = b.appendChecksum.txFrameLen) (hcrc : pass.crc = b.txChecksum)
    (hpass : pass.err = .none ∨ pass.busy = true) (hfail : fail.txFrameLen = 0 ∧ fail.err = .txLength) :
    b.BuildStep c (if txLengthOk c b then pass else fail) := by
  unfold Block.BuildStep
  split
  next h =>
    rw [if_pos (txLengthOk_iff.2 h)]
    exact ⟨hlen ▸ appendChecksum_txFrameLen_toNat hc h.2, hcrc.trans (congrArg crc16 (txBytes_eq b _)), hpass⟩
  next h =>
    rw [if_neg (mt txLengthOk_iff.1 h)]
    exact hfail

theorem build_buildStep {c : Config} (hc : c.Legal) (b : Block) : b.BuildStep c (build c b) :=
  buildStep_ite hc rfl rfl (.inl rfl) ⟨rfl, rfl⟩

theorem xchg_buildStep {c : Config} (hc : c.Legal) (he : c.enginePresent = true) (b : Block) :
    b.BuildStep c (xchg c b) := by
  rw [xchg, if_neg (by simp [he])]
  exact buildStep_ite hc rfl rfl (.inr rfl) ⟨rfl, rfl⟩

theorem Block.BuildStep.txFrameLen {c : Config} {b b' : Block} (h : b.BuildStep c b') :
    b'.txFrameLen.toNat =
      if b.txLen.toNat ≠ 0 ∧ b.txLen.toNat + 2 ≤ c.txbufSize then b.txLen.toNat + 2 else 0 := by
  unfold Block.BuildStep at h
  split at h
  next hl => rw [if_pos hl, h.1]
  next hl => rw [if_neg hl, h.1]; rfl

/-- Without the engine, XCHG is a command the block does not have (R181). -/
theorem xchg_noEngine {c : Config} (he : ¬c.enginePresent = true) (b : Block) : xchg c b = illegal b := by
  rw [xchg, if_pos (by simpa using he)]

@[simp] theorem parse_txFrameLen (c : Config) (b : Block) : (parse c b).txFrameLen = b.txFrameLen := by
  unfold parse parseFields
  split <;> rfl

@[simp] theorem check_txFrameLen (c : Config) (b : Block) : (check c b).txFrameLen = b.txFrameLen := by
  unfold check
  simp only
  split
  · rfl
  · split <;> rfl

@[simp] theorem Block.store_txFrameLen (b : Block) (a n : Nat) (v : Word) :
    (b.store a n v).txFrameLen = b.txFrameLen := by
  unfold Block.store
  split <;> rfl

@[simp] theorem Block.receive_txFrameLen (c : Config) (byte : Byte) (b : Block) :
    (b.receive c byte).txFrameLen = b.txFrameLen := by
  unfold Block.receive
  split <;> rfl

@[simp] theorem finishExchange_txFrameLen (c : Config) (b : Block) :
    (finishExchange c b).txFrameLen = b.txFrameLen := by
  unfold finishExchange
  simp only [Block.complete_txFrameLen]
  split <;> rfl

/-- A move that changes TX_FRAME_LEN is a BUILD step or a reset. -/
theorem Block.Move.txFrameLen_changed {c : Config} {b b' : Block} (hc : c.Legal) (h : Block.Move c b b')
    (hne : b'.txFrameLen ≠ b.txFrameLen) : b.BuildStep c b' ∨ b' = Block.reset c (b.epoch + 1) := by
  cases h with
  | build ie => exact .inl (Block.buildStep_accepted.1 (build_buildStep hc _))
  | xchg ie =>
    by_cases he : c.enginePresent = true
    · exact .inl (Block.buildStep_accepted.1 (xchg_buildStep hc he _))
    · exact absurd (congrArg Block.txFrameLen (xchg_noEngine he _)) hne
  | reset => exact .inr rfl
  | parse | check | store | receive | complete => simp at hne
  | stay | enable | overrun | crcInit | illegal | crcUpdate | status | crc | txLen | rxLen | timeout | divisor
  | transmit => exact absurd rfl hne

end Sys2Proof.Machine
end

section
/-!
The family `10_state.md`: CTRL, CRC_DATA and TX_FRAME_LEN.
-/
namespace Sys2Proof.Proofs
open Sys2Proof.Machine Sys2Proof.Claims

/-- Settles O17, by the two laws of the CTRL write and what `State.issue` does to a free and to a busy block. -/
theorem ctrlWriteOrder : Obligations.CtrlWriteOrder := by
  intro s v
  rw [busAccess_ctrl]
  by_cases h : v.extractLsb' 0 4 = 0x0#4
  · exact ⟨_, exec_decodeCtrl_nop h s, rfl, ⟨rfl, rfl⟩, rfl, fun _ => rfl, (absurd h ·), (absurd h ·)⟩
  · refine ⟨_, exec_decodeCtrl_command h s, rfl, ⟨rfl, rfl⟩, rfl, (absurd · h), fun _ hb => ?_, fun _ hb => ?_⟩
    · rw [issue_busy hb, State.wrote_blk]
    · rw [issue_free hb, State.wrote_blk, accepted]

/-- Settles O42: BUILD and XCHG both make the one BUILD step, and among the moves of a step only they and reset change
TX_FRAME_LEN. -/
theorem frameLengthWrittenOnlyByBuild : Obligations.FrameLengthWrittenOnlyByBuild := by
  refine ⟨fun _ _ => rfl, fun s ie i hc hb hi => ?_, fun s t hc hs hne => ?_⟩
  · obtain rfl | ⟨rfl, he⟩ := hi
    all_goals
      refine ⟨_, rfl, ?_⟩
      rw [issue_free hb]
    · exact (Block.buildStep_accepted.1 (build_buildStep hc _)).txFrameLen
    · exact (Block.buildStep_accepted.1 (xchg_buildStep hc he _)).txFrameLen
  · obtain hbuild | hreset := (step_move hs).2.txFrameLen_changed hc hne
    · unfold Block.BuildStep at hbuild
      split at hbuild
      · exact .inl hbuild
      · exact .inr (.inl hbuild)
    · exact .inr (.inr hreset)

/-- Settles O9, by the laws of CRC_UPDATE and of the registers' window: 0x18 is the one 4-aligned offset of CRC_DATA's four. -/
theorem crcUpdateSteps : Obligations.CrcUpdateSteps := by
  refine ⟨fun _ => rfl, fun s b => ⟨(exec_crcUpdate_free · b), (exec_crcUpdate_busy · b)⟩, fun s v => ?_, ?_,
    by decide, by decide⟩
  · rw [busAccess_read, memRead_crcData]
  · intro s v d size off hlo hhi hshape
    have hbad : size ≠ 4 ∨ off % 4 ≠ 0 := by omega
    cases d with
    | R => rw [busAccess_read, memRead_csr_busError (by omega) hbad]
    | W => rw [busAccess_write v s (by omega), memWrite_csr_busError (by omega) hbad]

end Sys2Proof.Proofs
end

section
/-!
Laws of accesses to the buffers: where an address of TXBUF or RXBUF leads, which accesses the buffers answer, and the bytes
a store leaves.
-/
namespace Sys2Proof.Machine
open Sys2Proof.Claims

/-! ### The bytes of a store (R84, R85) -/

/-- The bytes a store writes: the lanes of the value, lowest address first. -/
theorem Block.byte_store_lane (b : Block) {a n k : Nat} (v : Word) (hn : n = 1 ∨ n = 4) (hk : k < n) :
    (b.store a n v).byte (a + k) = lane v k := by
  rcases hn with rfl | rfl
  · obtain rfl : k = 0 := by omega
    exact Block.byte_poke_same b a _
  · simp only [Block.store, show (4 : Nat) ≠ 1 by decide, if_false, Block.byte_poke]
    match k, hk with
    | 0, _ | 1, _ | 2, _ | 3, _ => simp

/-- A store changes the buffers' bytes and nothing else of the block. -/
theorem Block.store_frame (b : Block) (a n : Nat) (v : Word) :
    b.store a n v = { b with mem := (b.store a n v).mem } := by
  unfold Block.store
  split <;> rfl

/-! ### Accesses to a buffer -/

/-- The accesses of `n` bytes at index `i` that a buffer of `size` bytes answers (R84, R85). -/
abbrev accessFits (size i n : Nat) : Prop := n = 1 ∨ (n = 4 ∧ i % 4 = 0 ∧ i + 3 < size)

theorem badShape_iff {a n : Nat} : badShape a n = true ↔ n ≠ 1 ∧ (n = 4 → a % 4 ≠ 0) := by
  simp only [badShape, Bool.or_eq_true, Bool.and_eq_true, bne_iff_ne, beq_iff_eq]
  omega

section Buffer
variable {c : Config} {base size i : Nat}

theorem bufferWindow_base (hw : bufferWindow c base size) : 0xFF < base ∧ base % 4 = 0 := by
  unfold bufferWindow at hw
  omega

/-- Index `i` of a buffer is in that buffer's window (R80, R81). -/
theorem windowOf_buffer (hc : c.Legal) (hw : bufferWindow c base size) (hi : i < size) :
    (windowOf (base + i) = .tx i ∧ size = c.txbufSize) ∨ (windowOf (base + i) = .rx i ∧ size = c.rxbufSize) := by
  obtain ⟨_, htx, _, hrx, _⟩ := hc
  obtain ⟨rfl, rfl⟩ | ⟨rfl, rfl⟩ := hw
  · left
    unfold windowOf txBase
    rw [if_neg (by omega), if_pos (by omega), Nat.add_sub_cancel_left]
    exact ⟨rfl, rfl⟩
  · right
    unfold windowOf txBase rxBase
    rw [if_neg (by omega), if_neg (by omega), if_pos (by omega), Nat.add_sub_cancel_left]
    exact ⟨rfl, rfl⟩

/-- The buffers start at 4-aligned addresses, so that an index is as aligned as its address. -/
theorem accessFits_iff (hw : bufferWindow c base size) (hi : i < size) (n : Nat) :
    accessFits size i n ↔ ¬badShape (base + i) n = true ∧ ¬i + n > size := by
  have := (bufferWindow_base hw).2
  rw [badShape_iff]
  omega

/-- Everything a read in a buffer can do (R84-R86, R310). -/
theorem memRead_buffer {s : State} (hc : s.cfg.Legal) (hw : bufferWindow s.cfg base size) (hi : i < size) (n : Nat) :
    memRead (base + i) n s =
      if accessFits size i n then
        if s.blk.busy then s.drew.respond (.data (if n = 1 then s.freeWord &&& 0xFF else s.freeWord))
        else s.respond (.data (s.blk.load (base + i) n))
      else s.busError (base + i) := by
  have hbuf : memRead (base + i) n s =
      if badShape (base + i) n then s.busError (base + i) else bufRead (base + i) n i size s := by
    obtain ⟨hwin, rfl⟩ | ⟨hwin, rfl⟩ := windowOf_buffer hc hw hi
    all_goals rw [memRead, hwin]
  simp only [hbuf, bufRead, accessFits_iff hw hi, ite_and, ite_not]

/-- Everything a write in a buffer can do (R84-R86, R310). -/
theorem memWrite_buffer {s : State} (hc : s.cfg.Legal) (hw : bufferWindow s.cfg base size) (hi : i < size) (n : Nat)
    (v : Word) :
    memWrite (base + i) n v s =
      if accessFits size i n then
        if s.blk.busy then s.busError (base + i) else s.wrote (s.blk.store (base + i) n v)
      else s.busError (base + i) := by
  have hbuf : memWrite (base + i) n v s =
      if badShape (base + i) n then s.busError (base + i) else bufWrite (base + i) n i size v s := by
    obtain ⟨hwin, rfl⟩ | ⟨hwin, rfl⟩ := windowOf_buffer hc hw hi
    all_goals rw [memWrite, hwin]
  simp only [hbuf, bufWrite, accessFits_iff hw hi, ite_and, ite_not]

/-- The same of the bus access: the two offsets whose writes are instructions lie below the buffers. -/
theorem busAccess_write_buffer {s : State} (hc : s.cfg.Legal) (hw : bufferWindow s.cfg base size) (hi : i < size)
    (n : Nat) (v : Word) :
    busAccess ⟨.W, n, base + i, v⟩ s = .next
      (if accessFits size i n then
        if s.blk.busy then s.busError (base + i) else s.wrote (s.blk.store (base + i) n v)
      else s.busError (base + i)) := by
  have := (bufferWindow_base hw).1
  rw [busAccess_write v s (by omega), memWrite_buffer hc hw hi]

/-- A write that a buffer answers while BUSY = 0: the lanes it leaves, and everything else as before (R84, R85). -/
theorem busAccess_write_buffer_free {s : State} (hc : s.cfg.Legal) (hw : bufferWindow s.cfg base size) (hi : i < size)
    (hb : s.blk.busy = false) {n : Nat} (hf : accessFits size i n) (v : Word) :
    Answers (busAccess ⟨.W, n, base + i, v⟩ s) fun t => t.host.response = .ok ∧
      (∀ k < n, t.blk.byte (base + i + k) = lane v k) ∧
      (∀ a, a < base + i ∨ base + i + n ≤ a → t.blk.byte a = s.blk.byte a) ∧
      t.blk = { s.blk with mem := t.blk.mem } := by
  have hn : n = 1 ∨ n = 4 := hf.imp_right And.left
  rw [busAccess_write_buffer hc hw hi, if_pos hf, if_neg (by simp [hb])]
  exact ⟨_, rfl, rfl, fun _ => s.blk.byte_store_lane v hn, fun _ => s.blk.byte_store_other v hn,
    s.blk.store_frame _ n v⟩

/-- A read that a buffer answers while BUSY = 0 (R84, R85). -/
theorem busAccess_read_buffer_free {s : State} (hc : s.cfg.Legal) (hw : bufferWindow s.cfg base size) (hi : i < size)
    (hb : s.blk.busy = false) {n : Nat} (hf : accessFits size i n) (v : Word) :
    busAccess ⟨.R, n, base + i, v⟩ s = .next (s.respond (.data (s.blk.load (base + i) n))) := by
  rw [busAccess_read, memRead_buffer hc hw hi, if_pos hf, if_neg (by simp [hb])]

end Buffer

end Sys2Proof.Machine
end

section
/-!
The family `20_memory.md`: the buffers.
-/
namespace Sys2Proof.Proofs
open Sys2Proof.Machine Sys2Proof.Claims

/-- Settles O32, by the laws of a read and of a write in a buffer; a byte or an aligned word that fits is `accessFits`. -/
theorem bufferAccesses : Obligations.BufferAccesses := by
  intro s base size i v hc hw hi fits
  refine ⟨fun hb => ⟨?_, ?_, fun hal hend => ?_, fun hal hend => ?_⟩, fun hb => ⟨fun n => ?_, fun n hf => ?_⟩,
    fun n d hf => ?_⟩
  · obtain ⟨t, ht, hok, hlane, hother, hframe⟩ := busAccess_write_buffer_free hc hw hi hb (.inl rfl) v
    exact ⟨t, ht, hok, hlane 0 (by omega), fun a ha => hother a (by omega), hframe⟩
  · exact busAccess_read_buffer_free hc hw hi hb (.inl rfl) v
  · obtain ⟨t, ht, hok, hlane, hother, hframe⟩ := busAccess_write_buffer_free hc hw hi hb (.inr ⟨rfl, hal, hend⟩) v
    exact ⟨t, ht, hok, hlane 0 (by omega), hlane 1 (by omega), hlane 2 (by omega), hlane 3 (by omega), hother, hframe⟩
  · exact busAccess_read_buffer_free hc hw hi hb (.inr ⟨rfl, hal, hend⟩) v
  · rw [busAccess_write_buffer hc hw hi, if_pos hb, ite_self]
  · exact ⟨_, by rw [busAccess_read, memRead_buffer hc hw hi, if_pos hf, if_pos hb]⟩
  · cases d with
    | R => rw [busAccess_read, memRead_buffer hc hw hi, if_neg hf]
    | W => rw [busAccess_write_buffer hc hw hi, if_neg hf]

end Sys2Proof.Proofs
end

section
/-!
Laws of the CTRL word (R111): its two fields are all that the decoder reads of it, and encoding gives them back.
-/
namespace Sys2Proof.Proofs

/-! ### The fields of a CTRL value -/

theorem getLsbD_ctrlValue (ie : Bool) (code : BitVec 4) (k : Nat) :
    (ctrlValue ie code).getLsbD k = if k < 4 then code.getLsbD k else decide (k = 8) && ie := by
  unfold ctrlValue
  simp only [BitVec.getLsbD_append, BitVec.getLsbD_zero, BitVec.getLsbD_ofBool]
  obtain h | h | rfl | h : k < 4 ∨ (4 ≤ k ∧ k < 8) ∨ k = 8 ∨ 8 < k := by omega
  · simp [h]
  · simp [show ¬k < 4 by omega, show k ≠ 8 by omega, show k - 4 < 4 by omega]
  · simp
  · simp [show ¬k < 4 by omega, show k ≠ 8 by omega, show ¬k - 4 < 4 by omega, show k - 4 - 4 ≠ 0 by omega]

@[simp] theorem ctrlValue_ie (ie : Bool) (code : BitVec 4) : (ctrlValue ie code)[8] = ie :=
  getLsbD_ctrlValue ie code 8

@[simp] theorem ctrlValue_cmd (ie : Bool) (code : BitVec 4) : (ctrlValue ie code).extractLsb' 0 4 = code :=
  BitVec.extractLsb'_append_eq_right

/-- The CTRL value of a word's two fields is the word with its reserved bits 0. -/
theorem ctrlValue_fields (v : Word) : ctrlValue (v.getLsbD 8) (v.extractLsb' 0 4) = v &&& 0x10F#32 := by
  refine BitVec.eq_of_getLsbD_eq fun k hk => ?_
  have hmask : ∀ j < 32, (0x10F#32).getLsbD j = decide (j < 4 ∨ j = 8) := by decide
  rw [getLsbD_ctrlValue, BitVec.getLsbD_and, hmask k hk]
  by_cases hcmd : k < 4
  · simp [hcmd]
  · by_cases hie : k = 8 <;> simp [hcmd, hie]

theorem ctrlWrite_inj {ie ie' : Bool} {code code' : BitVec 4} (h : ctrlWrite ie code = ctrlWrite ie' code') :
    ie = ie' ∧ code = code' := by
  have hv : ctrlValue ie code = ctrlValue ie' code' := by simpa [ctrlWrite] using h
  exact ⟨by simpa using congrArg (·.getLsbD 8) hv, by simpa using congrArg (·.extractLsb' 0 4) hv⟩

/-! ### The decoder reads the two fields alone -/

theorem decodeCtrl_congr {u v : Word} (hie : u.getLsbD 8 = v.getLsbD 8)
    (hcmd : u.extractLsb' 0 4 = v.extractLsb' 0 4) : decodeCtrl u = decodeCtrl v := by
  have hlow : u.extractLsb' 0 3 = v.extractLsb' 0 3 := by simpa using congrArg (·.extractLsb' 0 3) hcmd
  simp only [decodeCtrl, hie, hcmd, hlow]

theorem decodeCtrl_fields (v : Word) : decodeCtrl (ctrlValue (v.getLsbD 8) (v.extractLsb' 0 4)) = decodeCtrl v :=
  decodeCtrl_congr (ctrlValue_ie _ _) (ctrlValue_cmd _ _)

/-- Each of the 32 CTRL values without a reserved bit is the word of the instruction it decodes to. -/
theorem encode_decodeCtrl_ctrlValue :
    ∀ (ie : Bool) (code : BitVec 4), encode (decodeCtrl (ctrlValue ie code)) = ctrlWrite ie code := by decide

theorem encode_decodeCtrl (v : Word) : encode (decodeCtrl v) = ctrlWrite (v.getLsbD 8) (v.extractLsb' 0 4) :=
  decodeCtrl_fields v ▸ encode_decodeCtrl_ctrlValue _ _

/-- A word decodes to the instruction of a CTRL value exactly when it has that value's fields. -/
theorem decodeCtrl_eq_iff {v : Word} {ie : Bool} {code : BitVec 4} {i : Instr} (hi : decodeCtrl (ctrlValue ie code) = i) :
    decodeCtrl v = i ↔ v.extractLsb' 0 4 = code ∧ v.getLsbD 8 = ie := by
  subst hi
  constructor
  · intro h
    have hw : ctrlWrite (v.getLsbD 8) (v.extractLsb' 0 4) = ctrlWrite ie code := by
      rw [← encode_decodeCtrl, h, encode_decodeCtrl_ctrlValue]
    exact (ctrlWrite_inj hw).symm
  · rintro ⟨rfl, rfl⟩
    exact (decodeCtrl_fields v).symm

end Sys2Proof.Proofs
end

section
/-!
The family `30_encoding.md`: the CTRL word.
-/
namespace Sys2Proof.Proofs

/-- Settles O2: encoding gives the two fields back, and each command's code decodes to that command. -/
theorem ctrlWordIgnoresReservedBits : Obligations.CtrlWordIgnoresReservedBits := by
  intro v ie
  refine ⟨rfl, ?_, ?_, ?_, ?_, ?_, ?_, ?_⟩
  · rw [encode_decodeCtrl, ctrlWrite, ctrlValue_fields, ctrlOffset]
  all_goals exact decodeCtrl_eq_iff (by simp [decodeCtrl])

end Sys2Proof.Proofs
end

section
/-!
Laws of the checksum: growth by a sequence, the bytes that a change of the block feeds to the checksum unit, and what
the accesses of a free block feed.
-/
namespace Sys2Proof.Machine
open Sys2Proof.Claims

/-! ### The checksum of a sequence (R151, R155) -/

theorem crcFrom_append (c : Half) (x y : Bytes) : crcFrom c (x ++ y) = crcFrom (crcFrom c x) y :=
  List.foldl_append

/-! ### CRC_INIT (R152) -/

theorem encode_crcInit (ie : Bool) : encode (.crcInit ie) = .bus ⟨.W, 4, 0x00, if ie then 0x101 else 0x001⟩ := by
  cases ie <;> rfl

theorem decode_encode_crcInit (ie : Bool) : decode (encode (.crcInit ie)) = .ok (.crcInit ie) := by
  cases ie <;> rfl

theorem exec_crcInit_free {s : State} (h : s.blk.busy = false) (ie : Bool) :
    exec (.crcInit ie) s = .next (s.wrote { s.blk with ie := ie, crc := 0xFFFF, err := .none, done := true }) :=
  congrArg Host.Outcome.next (issue_free h ie _)

theorem exec_crcInit_busy {s : State} (h : s.blk.busy = true) (ie : Bool) :
    exec (.crcInit ie) s = .next (s.wrote { s.blk with ie := ie, cmdOverrun := true }) :=
  congrArg Host.Outcome.next (issue_busy h ie _)

/-! ### What is fed to the checksum unit -/

/-- From `b` to `b'` BUSY is kept, and CRC takes the steps of `bytes`, in order. -/
structure Block.Feeds (b : Block) (bytes : Bytes) (b' : Block) : Prop where
  busy : b'.busy = b.busy
  crc : b'.crc = crcFrom b.crc bytes

theorem Block.feeds_nil {b b' : Block} (hbusy : b'.busy = b.busy) (hcrc : b'.crc = b.crc) : b.Feeds [] b' :=
  ⟨hbusy, hcrc⟩

theorem Block.Feeds.trans {b b' b'' : Block} {x y : Bytes} (h : b.Feeds x b') (h' : b'.Feeds y b'') :
    b.Feeds (x ++ y) b'' :=
  ⟨h'.busy.trans h.busy, by rw [h'.crc, h.crc, crcFrom_append]⟩

theorem Block.feeds_updateCrc (b : Block) (data : Byte) : b.Feeds [data] (b.updateCrc data) := ⟨rfl, rfl⟩

theorem Block.feeds_parse (c : Config) (b : Block) : b.Feeds [] (parse c b) := by
  unfold parse parseFields
  split <;> exact Block.feeds_nil rfl rfl

theorem Block.feeds_store (b : Block) (a n : Nat) (v : Word) : b.Feeds [] (b.store a n v) := by
  rw [b.store_frame]
  exact Block.feeds_nil rfl rfl

/-- Of R110's commands, only CRC_INIT, BUILD, CHECK and XCHG write CRC or BUSY. -/
theorem Block.feeds_commandBody {code : BitVec 4} (h : code ∉ [0x1#4, 0x2#4, 0x4#4, 0x5#4]) (c : Config) (b : Block) :
    b.Feeds [] (commandBody code.toNat c b) := by
  have hcode : ∀ k ∈ [0x1#4, 0x2#4, 0x4#4, 0x5#4], code.toNat ≠ k.toNat :=
    fun k hk heq => h (BitVec.eq_of_toNat_eq heq ▸ hk)
  unfold commandBody
  split
  next heq => exact absurd heq (hcode 0x1#4 (by decide))
  next heq => exact absurd heq (hcode 0x2#4 (by decide))
  · exact Block.feeds_parse c b
  next heq => exact absurd heq (hcode 0x4#4 (by decide))
  next heq => exact absurd heq (hcode 0x5#4 (by decide))
  · exact Block.feeds_nil rfl rfl

/-! ### Accesses of a free block -/

/-- The access is no write to CRC and none of the commands CRC_INIT, BUILD, CHECK and XCHG (R157). -/
def leavesCrcToUpdates (a : Access) : Prop :=
  a.dir = .W → a.off ≠ 0x14 ∧ (a.off = 0x00 → a.data.extractLsb' 0 4 ∉ [0x1#4, 0x2#4, 0x4#4, 0x5#4])

theorem unlessBusy_feeds {off : Nat} {b : Block} {s : State} (h : s.blk.Feeds [] b) :
    s.blk.Feeds [] (unlessBusy off b s).blk := by
  unfold unlessBusy
  split
  · exact Block.feeds_nil rfl rfl
  · exact h

theorem csrWrite_feeds {off : Nat} (h : off ≠ 0x14) (v : Word) (s : State) :
    s.blk.Feeds [] (csrWrite off v s).blk := by
  unfold csrWrite
  split
  · exact Block.feeds_nil rfl rfl
  · exact absurd rfl h
  · exact unlessBusy_feeds (Block.feeds_nil rfl rfl)
  · exact unlessBusy_feeds (Block.feeds_nil rfl rfl)
  · split
    · exact unlessBusy_feeds (Block.feeds_nil rfl rfl)
    · exact Block.feeds_nil rfl rfl
  · split
    · exact unlessBusy_feeds (Block.feeds_nil rfl rfl)
    · exact Block.feeds_nil rfl rfl
  · exact Block.feeds_nil rfl rfl

theorem bufWrite_feeds (a n i size : Nat) (v : Word) (s : State) : s.blk.Feeds [] (bufWrite a n i size v s).blk := by
  unfold bufWrite
  split
  · exact Block.feeds_nil rfl rfl
  · split
    · exact Block.feeds_nil rfl rfl
    · exact Block.feeds_store _ a n v

/-- A plain write changes CRC at its own offset only (R41), and never BUSY. -/
theorem memWrite_feeds {a : Nat} (h : a ≠ 0x14) (n : Nat) (v : Word) (s : State) :
    s.blk.Feeds [] (memWrite a n v s).blk := by
  unfold memWrite
  split
  · exact Block.feeds_nil rfl rfl
  · split
    · split
      · exact Block.feeds_nil rfl rfl
      · exact csrWrite_feeds h v s
    · exact bufWrite_feeds ..
    · exact bufWrite_feeds ..
    · exact Block.feeds_nil rfl rfl

/-- A CTRL write of another command than those four. -/
theorem exec_decodeCtrl_feeds {s : State} (hb : s.blk.busy = false) {v : Word}
    (h : v.extractLsb' 0 4 ∉ [0x1#4, 0x2#4, 0x4#4, 0x5#4]) :
    Answers (exec (decodeCtrl v) s) fun t => s.blk.Feeds [] t.blk := by
  by_cases h0 : v.extractLsb' 0 4 = 0x0#4
  · exact ⟨_, exec_decodeCtrl_nop h0 s, Block.feeds_nil rfl rfl⟩
  · refine ⟨_, exec_decodeCtrl_command h0 s, ?_⟩
    rw [issue_free hb]
    have hacc : s.blk.Feeds [] (accepted s (v.getLsbD 8)) := Block.feeds_nil rfl rfl
    exact hacc.trans (Block.feeds_commandBody h s.cfg _)

/-- One access of a free block feeds the byte of its CRC_UPDATE, where it is one, and nothing else. -/
theorem busAccess_feeds {s : State} (hb : s.blk.busy = false) {a : Access} (ha : leavesCrcToUpdates a) :
    Answers (busAccess a s) fun t => s.blk.Feeds (crcByte a).toList t.blk := by
  obtain ⟨dir, size, off, v⟩ := a
  cases dir with
  | R =>
    obtain ⟨_, hblk⟩ := memRead_blk off size s
    exact ⟨_, busAccess_read size off v s, Block.feeds_nil (congrArg Block.busy hblk) (congrArg Block.crc hblk)⟩
  | W =>
    obtain ⟨hcrc, hcmd⟩ := ha rfl
    by_cases hins : size = 4 ∧ (off = 0x00 ∨ off = 0x18)
    · obtain ⟨rfl, rfl | rfl⟩ := hins
      · rw [busAccess_ctrl]
        exact exec_decodeCtrl_feeds hb (hcmd rfl)
      · rw [busAccess_crcData]
        exact ⟨_, exec_crcUpdate_free hb _, s.blk.feeds_updateCrc _⟩
    · have hnone : crcByte ⟨.W, size, off, v⟩ = none := if_neg fun ⟨_, hs, ho⟩ => hins ⟨hs, .inr ho⟩
      exact ⟨_, busAccess_write v s hins, hnone ▸ memWrite_feeds hcrc size v s⟩

/-- Events one after another: the first answers, and the others answer from there. -/
theorem answers_play_cons {P Q : State → Prop} {e : Event} {es : List Event} {s : State}
    (he : Answers (runEvent e s) P) (hes : ∀ t, P t → Answers (play es t) Q) : Answers (play (e :: es) s) Q := by
  obtain ⟨t, ht, hP⟩ := he
  rw [play, ht]
  exact hes t hP

/-- Accesses of a free block feed the bytes of the CRC_UPDATEs among them, in order. -/
theorem play_accesses_feeds (accesses : List Access) (ha : ∀ a ∈ accesses, leavesCrcToUpdates a) :
    ∀ s : State, s.blk.busy = false →
      Answers (play (accesses.map fun a => .transaction (.bus a)) s) fun t =>
        s.blk.Feeds (accesses.filterMap crcByte) t.blk := by
  induction accesses with
  | nil => exact fun s _ => ⟨s, rfl, Block.feeds_nil rfl rfl⟩
  | cons a rest ih =>
    obtain ⟨ha, hrest⟩ := List.forall_mem_cons.1 ha
    intro s hb
    have hbytes : (a :: rest).filterMap crcByte = (crcByte a).toList ++ rest.filterMap crcByte := by
      cases h : crcByte a <;> simp [h]
    refine answers_play_cons (busAccess_feeds hb ha) fun t hfeeds => ?_
    obtain ⟨u, hu, hrun⟩ := ih hrest t (hfeeds.busy.trans hb)
    exact ⟨u, hu, hbytes ▸ hfeeds.trans hrun⟩

end Sys2Proof.Machine
end

section
/-!
The family `40_checksum.md`: the checksum function and the checksum unit.
-/
namespace Sys2Proof.Proofs
open Sys2Proof.Machine Sys2Proof.Claims

/-- Settles O6: `crc16` is a fold from 0xFFFF; the vectors are computed. -/
theorem checksumVectorsAndPieces : Obligations.ChecksumVectorsAndPieces :=
  ⟨rfl, fun a b => crcFrom_append _ a [b], crcFrom_append _, by decide +kernel, by decide +kernel,
    by decide +kernel, by decide +kernel⟩

/-- Settles O8, by the laws of CRC_INIT. -/
theorem crcInitLoadsInitialValue : Obligations.CrcInitLoadsInitialValue := fun _ ie =>
  ⟨encode_crcInit ie, (exec_crcInit_free · ie), (exec_crcInit_busy · ie)⟩

/-- Settles O7: CRC_INIT sets CRC to `crc16 []`, and each access after it feeds the byte of its CRC_UPDATE alone. -/
theorem crcUpdatesComputeCrc16 : Obligations.CrcUpdatesComputeCrc16 := by
  intro s ie accesses hb ha
  have hinit : Answers (runEvent (.transaction (encode (.crcInit ie))) s) fun t =>
      t.blk.busy = false ∧ t.blk.crc = crcInitValue :=
    ⟨_, (runPacket_decode (decode_encode_crcInit ie) s).trans (exec_crcInit_free hb ie), hb, rfl⟩
  refine answers_play_cons hinit fun t ⟨hfree, hcrc⟩ => ?_
  obtain ⟨u, hu, hfeeds⟩ := play_accesses_feeds accesses ha t hfree
  exact ⟨u, hu, by rw [hfeeds.crc, hcrc, crc16], hfeeds.busy.trans hfree⟩

end Sys2Proof.Proofs
end

section
/-!
Laws of BUILD, of CHECK and of the commands the block does not have: when each succeeds, and the bytes of a frame that
BUILD makes or CHECK accepts.
-/
namespace Sys2Proof.Machine
open Sys2Proof.Claims

/-! ### The checksum bytes of a frame (R90, R121) -/

theorem hi8_be16 (x y : Byte) : hi8 (be16 x y) = x := BitVec.extractLsb'_append_eq_left

theorem lo8_be16 (x y : Byte) : lo8 (be16 x y) = y := BitVec.extractLsb'_append_eq_right

/-- Two bytes are a checksum's exactly when they read back as it, high byte first. -/
theorem eq_crcBytes_iff {x y : Byte} {c : Half} : [x, y] = crcBytes c ↔ be16 x y = c := by
  constructor
  · intro h
    obtain ⟨rfl, rfl⟩ : x = hi8 c ∧ y = lo8 c := by simpa [crcBytes] using h
    exact be16_halves c
  · rintro rfl
    rw [crcBytes, hi8_be16, lo8_be16]

/-! ### BUILD (R170) -/

/-- A BUILD that passes its length check appends the checksum. -/
theorem exec_build_success {s : State} (hb : s.blk.busy = false)
    (h : s.blk.txLen.toNat ≠ 0 ∧ s.blk.txLen.toNat + 2 ≤ s.cfg.txbufSize) (ie : Bool) :
    exec (.build ie) s = .next (s.wrote ((accepted s ie).appendChecksum.complete .none)) :=
  congrArg Host.Outcome.next ((issue_free hb ie _).trans (congrArg s.wrote (if_pos (txLengthOk_iff.2 h))))

/-- A BUILD that does not drops the frame. -/
theorem exec_build_failure {s : State} (hb : s.blk.busy = false)
    (h : ¬(s.blk.txLen.toNat ≠ 0 ∧ s.blk.txLen.toNat + 2 ≤ s.cfg.txbufSize)) (ie : Bool) :
    exec (.build ie) s = .next (s.wrote ((accepted s ie).dropFrame.complete .txLength)) :=
  congrArg Host.Outcome.next ((issue_free hb ie _).trans (congrArg s.wrote (if_neg (mt txLengthOk_iff.1 h))))

/-- A BUILD that ends with NONE has passed its length check. -/
theorem txLen_of_exec_build {s t : State} {ie : Bool} (hb : s.blk.busy = false) (h : exec (.build ie) s = .next t)
    (herr : t.blk.err = .none) : s.blk.txLen.toNat ≠ 0 ∧ s.blk.txLen.toNat + 2 ≤ s.cfg.txbufSize := by
  by_contra hlen
  obtain rfl := Host.Outcome.next.inj ((exec_build_failure hb hlen ie).symm.trans h)
  cases herr

/-- The bytes of TXBUF after BUILD's writes: the checksum's at TX_LEN and the next index, the others as before (R174). -/
theorem txByte_appendChecksum (b : Block) (i : Nat) : b.appendChecksum.txByte i =
    if i = b.txLen.toNat + 1 then lo8 b.txChecksum
    else if i = b.txLen.toNat then hi8 b.txChecksum else b.txByte i := by
  simp only [Block.txByte, byte_appendChecksum, Nat.add_assoc, Nat.add_left_cancel_iff]

/-- BUILD appends the checksum to the bytes it covers. -/
theorem txFrom_appendChecksum (b : Block) :
    b.appendChecksum.txFrom 0 (b.txLen.toNat + 2) = b.txFrom 0 b.txLen.toNat ++ crcBytes b.txChecksum := by
  have hkept : b.appendChecksum.txFrom 0 b.txLen.toNat = b.txFrom 0 b.txLen.toNat := txFrom_congr fun i _ hi => by
    rw [txByte_appendChecksum, if_neg (by omega), if_neg (by omega)]
  simp [txFrom_snoc, hkept, txByte_appendChecksum, crcBytes]

/-- A frame that BUILD makes is the encoding of its opcode and its payload (R172). -/
theorem txFrom_appendChecksum_encodeFrame {b : Block} (h : b.txLen.toNat ≠ 0) :
    b.appendChecksum.txFrom 0 (b.txLen.toNat + 2) =
      encodeFrame (b.txByte 0) (b.txFrom 1 (b.txLen.toNat - 1)) := by
  have hcons : b.txFrom 0 b.txLen.toNat = b.txByte 0 :: b.txFrom 1 (b.txLen.toNat - 1) := by
    rw [← txFrom_cons, Nat.sub_add_cancel (Nat.pos_of_ne_zero h)]
  rw [txFrom_appendChecksum, Block.txChecksum, txBytes_eq, hcons, encodeFrame]

/-- BUILD's checksum depends on TX_LEN and the bytes it covers (R171). -/
theorem txChecksum_congr {b b' : Block} (hlen : b.txLen = b'.txLen)
    (hbytes : ∀ i < b.txLen.toNat, b.txByte i = b'.txByte i) : b.txChecksum = b'.txChecksum := by
  rw [Block.txChecksum, Block.txChecksum, txBytes_eq, txBytes_eq, ← hlen,
    txFrom_congr fun i _ hi => hbytes i (by omega)]

/-- So does every byte of its frame. -/
theorem txByte_appendChecksum_congr {b b' : Block} (hlen : b.txLen = b'.txLen)
    (hbytes : ∀ i < b.txLen.toNat, b.txByte i = b'.txByte i) {i : Nat} (hi : i < b.txLen.toNat + 2) :
    b.appendChecksum.txByte i = b'.appendChecksum.txByte i := by
  rw [txByte_appendChecksum, txByte_appendChecksum, ← hlen, ← txChecksum_congr hlen hbytes]
  split
  · rfl
  · split
    · rfl
    · exact hbytes i (by omega)

/-! ### CHECK (R175) -/

theorem exec_check_free {s : State} (h : s.blk.busy = false) (ie : Bool) :
    exec (.check ie) s = .next (s.wrote (check s.cfg (accepted s ie))) :=
  congrArg Host.Outcome.next (issue_free h ie _)

theorem check_err_none_iff {c : Config} {b : Block} :
    (check c b).err = .none ↔
      3 ≤ b.rxLen.toNat ∧ b.rxLen.toNat ≤ c.rxbufSize ∧ b.checkComputed = b.checkReceived := by
  unfold check
  simp only
  split
  · exact iff_of_false (by simp) (by omega)
  · split
    · exact iff_of_false (by simp) (by omega)
    · rw [Block.complete_err, ite_eq_left_iff]
      simp only [reduceCtorEq, imp_false, not_not]
      exact ⟨fun h => ⟨by omega, by omega, h⟩, fun ⟨_, _, h⟩ => h⟩

/-- RXBUF holds an encoded frame exactly when it holds the opcode and the payload, followed by their checksum. -/
theorem rxFrom_eq_encodeFrame_iff {b : Block} {n : Nat} {op : Byte} {p : Bytes} :
    b.rxFrom 0 (n + 2) = encodeFrame op p ↔
      b.rxFrom 0 n = op :: p ∧ be16 (b.rxByte n) (b.rxByte (n + 1)) = crc16 (op :: p) := by
  have hsplit : b.rxFrom 0 (n + 2) = b.rxFrom 0 n ++ [b.rxByte n, b.rxByte (n + 1)] := by simp [rxFrom_snoc]
  rw [hsplit, encodeFrame, ← eq_crcBytes_iff]
  exact ⟨(List.append_inj' · rfl), fun ⟨hbytes, hcrc⟩ => by rw [hbytes, hcrc]⟩

/-- The frames CHECK accepts are the encoded ones that fit (R176). -/
theorem check_err_none_iff_encodeFrame {c : Config} {b : Block} :
    (check c b).err = .none ↔ 3 ≤ b.rxLen.toNat ∧ b.rxLen.toNat ≤ c.rxbufSize ∧
      b.rxFrom 0 b.rxLen.toNat = encodeFrame (b.rxByte 0) (b.rxFrom 1 (b.rxLen.toNat - 3)) := by
  rw [check_err_none_iff, Block.checkComputed, Block.checkReceived, rxBytes_eq]
  generalize b.rxLen.toNat = L
  refine and_congr_right fun h3 => and_congr_right fun _ => ?_
  obtain ⟨k, rfl⟩ := Nat.exists_eq_add_of_le' h3
  show crc16 (b.rxFrom 0 (k + 1)) = be16 (b.rxByte (k + 1)) (b.rxByte (k + 2)) ↔ _
  rw [rxFrom_eq_encodeFrame_iff, rxFrom_cons]
  exact ⟨fun h => ⟨rfl, h.symm⟩, fun ⟨_, h⟩ => h.symm⟩

/-- Whatever opcode and payload it has, an encoded frame that fits is accepted. -/
theorem check_err_none_of_encodeFrame {c : Config} {b : Block} {op : Byte} {p : Bytes}
    (hfit : b.rxLen.toNat ≤ c.rxbufSize) (h : b.rxFrom 0 b.rxLen.toNat = encodeFrame op p) :
    (check c b).err = .none := by
  have hlen : b.rxLen.toNat = p.length + 1 + 2 := by simpa [encodeFrame, crcBytes] using congrArg List.length h
  rw [check_err_none_iff, Block.checkComputed, Block.checkReceived, rxBytes_eq]
  rw [hlen] at h ⊢
  obtain ⟨hbytes, hcrc⟩ := rxFrom_eq_encodeFrame_iff.1 h
  exact ⟨by omega, hlen ▸ hfit, by simpa [hbytes] using hcrc.symm⟩

/-! ### Commands the block does not have (R181) -/

theorem issue_illegal_free {s : State} (h : s.blk.busy = false) (ie : Bool) :
    s.issue ie (fun _ b => illegal b) = s.wrote { s.blk with ie := ie, err := .illegalCmd, done := true } :=
  issue_free h ie _

theorem issue_xchg_noEngine {s : State} (he : s.cfg.enginePresent = false) (ie : Bool) :
    s.issue ie xchg = s.issue ie fun _ b => illegal b := by
  simp only [State.issue, xchg_noEngine (Bool.eq_false_iff.1 he)]

/-- The codes 0x6 to 0xF of CMD are the reserved commands (R110). -/
theorem decodeCtrl_reserved {v : Word} (h : 0x6 ≤ (v.extractLsb' 0 4).toNat) :
    ∃ ie bit0 low, decodeCtrl v = .reserved67 ie bit0 ∨ decodeCtrl v = .reserved8F ie low := by
  unfold decodeCtrl
  generalize (v.extractLsb' 0 4).toNat = n at h ⊢
  match n, h with
  | 6, _ => exact ⟨_, false, 0, .inl rfl⟩
  | 7, _ => exact ⟨_, true, 0, .inl rfl⟩
  | _ + 8, _ => exact ⟨_, false, _, .inr rfl⟩

end Sys2Proof.Machine
end

section
/-!
The family `41_builder.md`: BUILD, CHECK, NOP and the reserved commands.
-/
namespace Sys2Proof.Proofs
open Sys2Proof.Machine Sys2Proof.Claims

/-- Settles O11, by what a BUILD that passes its length check appends; the frame's length fits the register. -/
theorem buildMakesFrame : Obligations.BuildMakesFrame := by
  intro s ie hc hb hne hfit
  have hlen := appendChecksum_txFrameLen_toNat (b := accepted s ie) hc hfit
  refine ⟨_, exec_build_success hb ⟨hne, hfit⟩ ie, rfl, rfl, ?_, hlen, congrArg crc16 (txBytes_eq _ _)⟩
  exact (congrArg (Block.txFrom _ 0) hlen).trans (txFrom_appendChecksum_encodeFrame hne)

/-- Settles O12, by the two outcomes of BUILD's length check. -/
theorem buildWritesExactlyTwoBytes : Obligations.BuildWritesExactlyTwoBytes := by
  intro s ie hb
  by_cases h : s.blk.txLen.toNat ≠ 0 ∧ s.blk.txLen.toNat + 2 ≤ s.cfg.txbufSize
  · refine ⟨_, exec_build_success hb h ie, ⟨rfl, rfl⟩, rfl, fun _ => ⟨fun a hhi hlo => ?_, rfl⟩, (absurd h ·)⟩
    exact (byte_appendChecksum (accepted s ie) a).trans ((if_neg hlo).trans (if_neg hhi))
  · exact ⟨_, exec_build_failure hb h ie, ⟨rfl, rfl⟩, rfl, (absurd · h), fun _ => rfl⟩

/-- Settles O13: the length check reads TX_LEN alone, and what BUILD appends depends on TX_LEN and the bytes covered. -/
theorem buildIsPure : Obligations.BuildIsPure := by
  intro s s' ie ie' hcfg hb hb' hlen hbytes
  by_cases h : s.blk.txLen.toNat ≠ 0 ∧ s.blk.txLen.toNat + 2 ≤ s.cfg.txbufSize
  · refine ⟨_, exec_build_success hb h ie, _, exec_build_success hb' (hlen ▸ hcfg ▸ h) ie', rfl, ?_,
      fun _ => ⟨?_, ?_⟩⟩
    · exact congrArg (fun n : Word => BitVec.ofNat 32 (n.toNat + 2)) hlen
    · exact txChecksum_congr hlen hbytes
    · intro i hi
      have hle : (BitVec.ofNat 32 (s.blk.txLen.toNat + 2)).toNat ≤ s.blk.txLen.toNat + 2 := Nat.mod_le _ _
      exact txByte_appendChecksum_congr (b := accepted s ie) (b' := accepted s' ie') hlen hbytes (hi.trans_le hle)
  · refine ⟨_, exec_build_failure hb h ie, _, exec_build_failure hb' (hlen ▸ hcfg ▸ h) ie', rfl, rfl, ?_⟩
    exact fun herr => nomatch herr

/-- Settles O14: CHECK accepts the encoded frames that fit, and a frame that BUILD makes is one (O11). -/
theorem checkAcceptsExactlyEncodedFrames : Obligations.CheckAcceptsExactlyEncodedFrames := by
  refine ⟨fun s ie hb => ⟨_, exec_check_free hb ie, check_err_none_iff_encodeFrame⟩, ?_⟩
  intro s t s' ie ie' hc hb hbuild herr hb' _ hfit hcopy
  obtain ⟨hne, hlen⟩ := txLen_of_exec_build hb hbuild herr
  obtain ⟨t', ht', _, _, hframe, _⟩ := buildMakesFrame s ie hc hb hne hlen
  obtain rfl := Host.Outcome.next.inj (ht'.symm.trans hbuild)
  exact ⟨_, exec_check_free hb' ie', check_err_none_of_encodeFrame hfit (hcopy.trans hframe)⟩

/-- Settles O16, by the decoder's reserved codes and what `State.issue` does with an illegal command. -/
theorem nopSetsIeAndReservedAreIllegal : Obligations.NopSetsIeAndReservedAreIllegal := by
  refine ⟨fun v h => congrArg Except.ok ?_, fun v h => ?_, fun s ie bit0 low => ⟨rfl, fun hb => ?_, fun hb => ?_⟩⟩
  · exact (decodeCtrl_eq_iff (by simp [decodeCtrl])).2 ⟨h, rfl⟩
  · obtain ⟨ie, bit0, low, hv⟩ := decodeCtrl_reserved h
    exact ⟨ie, bit0, low, hv.imp (congrArg Except.ok) (congrArg Except.ok)⟩
  · have hillegal := issue_illegal_free hb ie
    exact ⟨congrArg _ hillegal, congrArg _ hillegal,
      fun he => congrArg _ ((issue_xchg_noEngine he ie).trans hillegal)⟩
  · have hdropped := issue_busy hb ie fun _ b => illegal b
    exact ⟨congrArg _ hdropped, congrArg _ hdropped⟩

end Sys2Proof.Proofs
end

section
/-!
Laws of PARSE: its code in terms of RXBUF's slices, what it writes where it extracts and where it does not, and where the
parts of a wrapped response lie.
-/
namespace Sys2Proof.Machine
open Sys2Proof.Claims

/-! ### The code (R190, R204) -/

/-- PARSE's checks, the markers read as slices of RXBUF. -/
theorem parseCode_eq (c : Config) (b : Block) : parseCode c b =
    if c.rxbufSize < b.rxLen.toNat then .rxLength
    else if b.rxLen.toNat < 6 then .malformedLength
    else if b.rxFrom 0 3 ≠ [0xAA, 0xAB, 0xAA] then .malformedHeader
    else if b.rxFrom (b.rxLen.toNat - 3) 3 ≠ [0xAB, 0xCC, 0xAB] then .malformedFooter
    else if b.rxLen.toNat < 10 then .malformedShort
    else if b.rxByte 3 ≠ 0x00 then .deviceError
    else .none := by
  have hheader : (!b.headerOk) = true ↔ b.rxFrom 0 3 ≠ [0xAA, 0xAB, 0xAA] := by
    rw [Bool.not_eq_true', ← Bool.not_eq_true, headerOk_iff]
  by_cases hlen : b.rxLen.toNat < 6
  · simp only [parseCode, hlen, if_true]
  · have hfooter : (!b.footerOk b.rxLen.toNat) = true ↔ b.rxFrom (b.rxLen.toNat - 3) 3 ≠ [0xAB, 0xCC, 0xAB] := by
      rw [Bool.not_eq_true', ← Bool.not_eq_true, footerOk_iff b (not_lt.1 hlen)]
    simp only [parseCode, hheader, hfooter, gt_iff_lt, BitVec.ofNat_eq_ofNat]

/-- A frame of at least 10 bytes that fits and has both markers fails at most the check of its status. -/
theorem parseCode_wellFormed {c : Config} {b : Block} (hfit : b.rxLen.toNat ≤ c.rxbufSize) (hlen : 10 ≤ b.rxLen.toNat)
    (hheader : b.rxFrom 0 3 = [0xAA, 0xAB, 0xAA]) (hfooter : b.rxFrom (b.rxLen.toNat - 3) 3 = [0xAB, 0xCC, 0xAB]) :
    parseCode c b = if b.rxByte 3 = 0x00 then .none else .deviceError := by
  rw [parseCode_eq, if_neg (by omega), if_neg (by omega), if_neg (not_not.2 hheader), if_neg (not_not.2 hfooter),
    if_neg (by omega), ite_not]

/-- The code depends on RX_LEN, the markers and the status byte (R198, R199). -/
theorem parseCode_congr {c : Config} {b b' : Block} (hlen : b.rxLen = b'.rxLen)
    (hheader : b.rxFrom 0 3 = b'.rxFrom 0 3)
    (hfooter : b.rxFrom (b.rxLen.toNat - 3) 3 = b'.rxFrom (b.rxLen.toNat - 3) 3) (hstatus : b.rxByte 3 = b'.rxByte 3) :
    parseCode c b = parseCode c b' := by
  rw [parseCode_eq, parseCode_eq, hheader, hfooter, hstatus, hlen]

theorem ErrCode.extracts_iff (code : ErrCode) : code.extracts = true ↔ code = .none ∨ code = .deviceError := by
  cases code <;> simp [ErrCode.extracts]

/-! ### What PARSE writes (R190) -/

theorem exec_parse_free {s : State} (hb : s.blk.busy = false) (ie : Bool) :
    exec (.parse ie) s = .next (s.wrote (parse s.cfg (accepted s ie))) :=
  congrArg Host.Outcome.next (issue_free hb ie _)

/-- With NONE or DEVICE_ERROR the extraction registers are filled (R195-R197). -/
theorem parse_extracts {c : Config} {b : Block} (h : (parseCode c b).extracts = true) :
    parse c b = b.extract.complete (parseCode c b) :=
  congrArg (Block.complete _) (if_pos h)

/-- With any other code they are zeroed. -/
theorem parse_clears {c : Config} {b : Block} (h : ¬(parseCode c b).extracts = true) :
    parse c b = b.clearExtraction.complete (parseCode c b) :=
  congrArg (Block.complete _) (if_neg h)

theorem exec_parse_extracts {s : State} (hb : s.blk.busy = false) (h : (parseCode s.cfg s.blk).extracts = true)
    (ie : Bool) :
    exec (.parse ie) s = .next (s.wrote ((accepted s ie).extract.complete (parseCode s.cfg s.blk))) :=
  (exec_parse_free hb ie).trans (congrArg (Host.Outcome.next <| s.wrote ·) (parse_extracts h))

theorem exec_parse_clears {s : State} (hb : s.blk.busy = false) (h : ¬(parseCode s.cfg s.blk).extracts = true)
    (ie : Bool) :
    exec (.parse ie) s = .next (s.wrote ((accepted s ie).clearExtraction.complete (parseCode s.cfg s.blk))) :=
  (exec_parse_free hb ie).trans (congrArg (Host.Outcome.next <| s.wrote ·) (parse_clears h))

/-! ### A wrapped response (R200) -/

theorem rxFrom_append (b : Block) (a m n : Nat) : b.rxFrom a (m + n) = b.rxFrom a m ++ b.rxFrom (a + m) n := by
  induction n with
  | zero => simp [Block.rxFrom]
  | succ n ih => rw [← Nat.add_assoc, rxFrom_snoc, ih, rxFrom_snoc, List.append_assoc, Nat.add_assoc]

/-- The parts of `wrap status reserved body t0 t1`, each in its place in RXBUF. -/
structure Block.HoldsWrapped (b : Block) (status reserved : Byte) (body : Bytes) (t0 t1 : Byte) : Prop where
  rx_header : b.rxFrom 0 3 = header
  rx_status : b.rxByte 3 = status
  rx_reserved : b.rxByte 4 = reserved
  rx_body : b.rxFrom 5 body.length = body
  rx_trailer0 : b.rxByte (body.length + 5) = t0
  rx_trailer1 : b.rxByte (body.length + 6) = t1
  rx_footer : b.rxFrom (body.length + 7) 3 = footer

theorem Block.holdsWrapped {b : Block} {status reserved t0 t1 : Byte} {body : Bytes}
    (h : b.rxFrom 0 (body.length + 10) = wrap status reserved body t0 t1) :
    b.HoldsWrapped status reserved body t0 t1 := by
  have hsplit : b.rxFrom 0 (body.length + 10) = b.rxFrom 0 3 ++ [b.rxByte 3, b.rxByte 4] ++ b.rxFrom 5 body.length ++
      [b.rxByte (body.length + 5), b.rxByte (body.length + 6)] ++ b.rxFrom (body.length + 7) 3 := by
    rw [show body.length + 10 = 3 + 2 + body.length + 2 + 3 by omega]
    simp only [rxFrom_append, Nat.zero_add, Nat.reduceAdd]
    rw [Nat.add_comm 5]
    rfl
  rw [hsplit, wrap] at h
  obtain ⟨h, hfooter⟩ := List.append_inj' h (by simp [footer])
  obtain ⟨h, htrailer⟩ := List.append_inj' h rfl
  obtain ⟨h, hbody⟩ := List.append_inj' h (by simp)
  obtain ⟨hheader, hfields⟩ := List.append_inj' h rfl
  simp only [List.cons.injEq, and_true] at htrailer hfields
  exact ⟨hheader, hfields.1, hfields.2, hbody, htrailer.1, htrailer.2, hfooter⟩

/-- PARSE of a wrapped response that fits: the code its status gives, and its parts in the extraction registers. -/
theorem exec_parse_wrap {s : State} (ie : Bool) {status reserved t0 t1 : Byte} {body : Bytes} (hc : s.cfg.Legal)
    (hb : s.blk.busy = false) (hlen : s.blk.rxLen.toNat = body.length + 10) (hfit : body.length + 10 ≤ s.cfg.rxbufSize)
    (hframe : s.blk.rxFrom 0 (body.length + 10) = wrap status reserved body t0 t1) :
    Answers (exec (.parse ie) s) fun t =>
      t.blk.err = (if status = 0x00 then .none else .deviceError) ∧ t.blk.done = true ∧ t.blk.rxStatus = status ∧
      t.blk.rxReserved = reserved ∧ t.blk.rxBodyLen.toNat = body.length ∧
      t.blk.rxFrom 5 t.blk.rxBodyLen.toNat = body ∧ t.blk.rxTrailer = be16 t0 t1 ∧
      t.blk.rxHeader = 0xAAABAA ∧ t.blk.rxFooter = 0xABCCAB := by
  obtain ⟨hheader, hstatus, hreserved, hbody, ht0, ht1, hfooter⟩ := Block.holdsWrapped hframe
  have hcode : parseCode s.cfg s.blk = if status = 0x00 then .none else .deviceError := by
    rw [← hstatus]
    exact parseCode_wellFormed (by omega) (by omega) hheader (by rwa [hlen])
  have hext : (parseCode s.cfg s.blk).extracts = true := by
    rw [hcode]; split <;> rfl
  obtain ⟨_, hh, hf⟩ := extracts_parseCode hext
  obtain ⟨hheader', hfooter'⟩ := extract_markers (b := accepted s ie) hh hf
  have hbodyLen : (accepted s ie).extract.rxBodyLen.toNat = body.length := by
    obtain ⟨_, _, _, hmax, _⟩ := hc
    have : (accepted s ie).rxLen = s.blk.rxLen := rfl
    rw [Block.extract_rxBodyLen, BitVec.toNat_ofNat, this, hlen]
    omega
  refine ⟨_, exec_parse_extracts hb hext ie, hcode, rfl, hstatus, hreserved, hbodyLen, ?_, ?_, hheader', hfooter'⟩
  · exact (congrArg (Block.rxFrom _ 5) hbodyLen).trans hbody
  · show be16 (s.blk.rxByte (s.blk.rxLen.toNat - 5)) (s.blk.rxByte (s.blk.rxLen.toNat - 4)) = _
    rw [hlen]
    exact congrArg₂ be16 ht0 ht1

end Sys2Proof.Machine
end

section
/-!
The family `42_parser.md`: PARSE.
-/
namespace Sys2Proof.Proofs
open Sys2Proof.Machine Sys2Proof.Claims

/-- Settles O18: a wrapped response of status 0 passes every check, and its parts come back. -/
theorem parseRoundTrip : Obligations.ParseRoundTrip := by
  intro s ie body reserved t0 t1 hc hb hlen hfit hframe
  exact exec_parse_wrap ie hc hb hlen hfit hframe

/-- Settles O19: a wrapped response of another status fails the status check alone, after extraction. -/
theorem parseReportsDeviceError : Obligations.ParseReportsDeviceError := by
  intro s ie status reserved t0 t1 body hc hb hne hlen hfit hframe
  obtain ⟨t, ht, herr, hrest⟩ := exec_parse_wrap ie hc hb hlen hfit hframe
  exact ⟨t, ht, herr.trans (if_neg hne), hrest⟩

/-- Settles O20, by the branches of PARSE's chain of checks: each leaves one code, and its hypotheses
decide the seven conditions. -/
theorem parseReportsFirstFailure : Obligations.ParseReportsFirstFailure := by
  intro s ie hb
  refine ⟨_, exec_parse_free hb ie, ?_⟩
  have hcode : (parse s.cfg (accepted s ie)).err = parseCode s.cfg s.blk := rfl
  rw [parseCode_eq] at hcode
  split_ifs at hcode with hlong hshort hheader hfooter hten hstatus
  all_goals simp_all <;> omega

/-- Settles O22: the code depends on RX_LEN, the markers and the status byte; PARSE then fills the
registers from the same bytes, or zeroes them. -/
theorem trailerAndReservedNeverMatter : Obligations.TrailerAndReservedNeverMatter := by
  intro s s' ie hcfg hb hb' hlen h10 hbytes
  have hstatus : s.blk.rxByte 3 = s'.blk.rxByte 3 := hbytes 3 (by omega) (by omega)
  have hcode : parseCode s.cfg s.blk = parseCode s'.cfg s'.blk := by
    rw [← hcfg]
    exact parseCode_congr hlen (rxFrom_congr fun i _ _ => hbytes i (by omega) (by omega))
      (rxFrom_congr fun i _ _ => hbytes i (by omega) (by omega)) hstatus
  by_cases hext : (parseCode s.cfg s.blk).extracts = true
  · have hext' := hcode ▸ hext
    obtain ⟨_, hh, hf⟩ := extracts_parseCode hext
    obtain ⟨_, hh', hf'⟩ := extracts_parseCode hext'
    obtain ⟨hheader, hfooter⟩ := extract_markers hh hf
    obtain ⟨hheader', hfooter'⟩ := extract_markers hh' hf'
    exact ⟨_, exec_parse_extracts hb hext ie, _, exec_parse_extracts hb' hext' ie, hcode, hstatus,
      congrArg (fun n : Word => BitVec.ofNat 32 (n.toNat - 10)) hlen, hheader.trans hheader'.symm,
      hfooter.trans hfooter'.symm, fun _ => ⟨rfl, rfl⟩⟩
  · exact ⟨_, exec_parse_clears hb hext ie, _, exec_parse_clears hb' (hcode ▸ hext) ie, hcode, rfl, rfl, rfl, rfl,
      fun herr => absurd ((ErrCode.extracts_iff _).2 herr) hext⟩

end Sys2Proof.Proofs
end

section
/-!
Laws of the protocol engine and of the line: the character that carries a byte, the transmit step, the receive step, and
the three ways an exchange completes.
-/
namespace Sys2Proof.Machine

/-! ### UART characters (R223, R233) -/

theorem uartChar_start (b : Byte) : (uartChar b).getLsbD 0 = false :=
  (BitVec.getLsbD_append (x := 1#1 ++ b) (y := 0#1)).trans rfl

/-- The byte's bits follow the start bit, least-significant first. -/
theorem uartChar_data (b : Byte) {k : Nat} (h : k < 8) : (uartChar b).getLsbD (k + 1) = b.getLsbD k :=
  calc (uartChar b).getLsbD (k + 1)
    _ = (1#1 ++ b).getLsbD k := BitVec.getLsbD_append.trans (by simp)
    _ = b.getLsbD k := BitVec.getLsbD_append.trans (if_pos h)

theorem uartByte_uartChar (b : Byte) : uartByte (uartChar b) = some b := by
  have hdata : (uartChar b).extractLsb' 1 8 = b := by
    refine BitVec.eq_of_getLsbD_eq fun k hk => ?_
    rw [BitVec.getLsbD_extractLsb', decide_eq_true hk, Bool.true_and, Nat.add_comm, uartChar_data b hk]
  rw [uartByte, uartChar_start, uartChar_stop, hdata]
  rfl

theorem uartByte_of_stop_low {c : BitVec 10} (h : c.getLsbD 9 = false) : uartByte c = none := by
  rw [uartByte, h]
  rfl

theorem lineChar_of_stop_low {c : BitVec 10} (h : c.getLsbD 9 = false) (s : State) : lineChar c s = s := by
  rw [lineChar, uartByte_of_stop_low h]

/-! ### The transmit step (R222) -/

theorem canTransmit_iff {b : Block} :
    b.canTransmit = true ↔ b.engState = .frameSent ∧ b.txi < b.txFrameLen.toNat := by
  simp [Block.canTransmit]

theorem engineTx_of_canTransmit {s : State} (h : s.blk.canTransmit = true) :
    engineTx s = (s.send [s.blk.txByte s.blk.txi]).setBlk s.blk.transmit := if_pos h

theorem engineTx_of_not_frameSent {s : State} (h : s.blk.engState ≠ .frameSent) : engineTx s = s :=
  if_neg fun hcan => h (canTransmit_iff.1 hcan).1

/-- Where the line idles high, a character leaves it so: its stop bit is high (R223). -/
theorem Block.transmit_frame {b : Block} (h : b.txLine = true) :
    b.transmit = { b with
      txi := b.txi + 1, engState := b.transmit.engState, idleTimer := b.transmit.idleTimer } := by
  simp only [Block.transmit, uartChar_stop, h]

theorem Block.transmit_engState_last {b : Block} (h : b.txi + 1 = b.txFrameLen.toNat) :
    b.transmit.engState = .awaitingResponse := if_pos h

theorem Block.transmit_engState_more {b : Block} (h : b.txi + 1 ≠ b.txFrameLen.toNat) :
    b.transmit.engState = b.engState := if_neg h

/-! ### The receive step (R226, R227) -/

/-- A byte goes to the block's receiver where the host is not in its own read loop (R281). -/
theorem lineByte_of_not_collecting {s : State} (h : s.host.collecting = none) (byte : Byte) :
    lineByte byte s = receive byte s := by
  rw [lineByte, h]

theorem receive_of_not_capturing {s : State} (h : s.blk.capturing = false) (byte : Byte) : receive byte s = s :=
  if_neg (by simp [h])

theorem receive_of_capturing {s : State} (h : s.blk.capturing = true) (byte : Byte) :
    receive byte s = s.setBlk (s.blk.receive s.cfg byte) := if_pos h

@[simp] theorem receive_cfg (byte : Byte) (s : State) : (receive byte s).cfg = s.cfg := by
  unfold receive
  split <;> rfl

@[simp] theorem receive_host (byte : Byte) (s : State) : (receive byte s).host = s.host := by
  unfold receive
  split <;> rfl

@[simp] theorem receive_env (byte : Byte) (s : State) : (receive byte s).env = s.env := by
  unfold receive
  split <;> rfl

theorem Block.receive_of_room {c : Config} {b : Block} (h : b.rxn < c.rxbufSize) (byte : Byte) :
    b.receive c byte = { b.poke (rxBase + b.rxn) byte with rxn := b.rxn + 1, idleTimer := .running } := if_pos h

theorem Block.receive_of_full {c : Config} {b : Block} (h : ¬b.rxn < c.rxbufSize) (byte : Byte) :
    b.receive c byte = { b with ovf := true, idleTimer := .running } := if_neg h

/-- The bytes after a stored one: RXBUF[rxn] is new, every other byte is as before. -/
theorem Block.byte_receive_of_room {c : Config} {b : Block} (h : b.rxn < c.rxbufSize) (byte : Byte) (a : Nat) :
    (b.receive c byte).byte a = if a = rxBase + b.rxn then byte else b.byte a := by
  rw [receive_of_room h, ← Block.byte_poke]
  exact Block.byte_congr rfl rfl a

/-! ### Completion (R228, R229, R230) -/

/-- Silence is the block's idle event where the host is not in its own read loop (R281). -/
theorem lineQuiet_of_not_collecting {s : State} (h : s.host.collecting = none) : lineQuiet s = lineIdle s := by
  rw [lineQuiet, h]

theorem lineIdle_completes {s : State} (hcapturing : s.blk.capturing = true)
    (hstate : s.blk.engState = .awaitingResponse) : lineIdle s = s.setBlk (finishExchange s.cfg s.blk) :=
  if_pos (by simp [Block.canIdle, hcapturing, hstate])

/-- An exchange that ends with a code of its own, which PARSE did not give, clears the extraction registers. -/
theorem finishExchange_fails {c : Config} {b : Block} {code : ErrCode} (hcode : exchangeCode c b.stopCapture = code)
    (hclears : code.extracts = false) :
    finishExchange c b =
      { b.stopCapture.clearExtraction.complete code with engState := .failed, busy := false } := by
  subst hcode
  have hne : exchangeCode c b.stopCapture ≠ .none := fun h => by simp [h, ErrCode.extracts] at hclears
  rw [finishExchange]
  simp only [hclears, hne, if_false]
  rfl

/-- An exchange that ends with PARSE's code ends as PARSE does, with ENG_STATE and BUSY besides. -/
theorem finishExchange_parses {c : Config} {b : Block}
    (hcode : exchangeCode c b.stopCapture = parseCode c b.stopCapture) :
    finishExchange c b = { parse c b.stopCapture with
      engState := if (parse c b.stopCapture).err = .none then .decoded else .failed
      busy := false } := by
  rw [finishExchange, hcode, parse, parseFields]
  rfl

theorem exchangeCode_noResponse {c : Config} {b : Block} (h : b.rxn = 0) : exchangeCode c b = .noResponse := if_pos h

theorem exchangeCode_overflow {c : Config} {b : Block} (h : b.rxn ≠ 0) (hovf : b.ovf = true) :
    exchangeCode c b = .rxOverflow := (if_neg h).trans (if_pos hovf)

theorem exchangeCode_parse {c : Config} {b : Block} (h : b.rxn ≠ 0) (hovf : b.ovf = false) :
    exchangeCode c b = parseCode c b := (if_neg h).trans (if_neg (by simp [hovf]))

end Sys2Proof.Machine
end

section
/-!
The family `43_engine.md`: the steps of an exchange.
-/
namespace Sys2Proof.Proofs
open Sys2Proof.Machine Sys2Proof.Claims

/-- Settles O24: soundness enables the step in FRAME_SENT, and whether the byte is the last one decides the next state. -/
theorem transmitSendsNextByte : Obligations.TransmitSendsNextByte := by
  intro s hinv
  refine ⟨engineTx s, rfl, engineTx_of_not_frameSent, fun hsending => ?_⟩
  have hmore := hinv.sendingIndex hsending
  rw [engineTx_of_canTransmit (canTransmit_iff.2 ⟨hsending, hmore⟩)]
  refine ⟨rfl, rfl, rfl, Block.transmit_frame hinv.lineHigh, ?_⟩
  rw [State.setBlk_blk]
  by_cases hlast : s.blk.txi + 1 = s.blk.txFrameLen.toNat
  · simp [Block.transmit_engState_last hlast, hlast]
  · have hlt : s.blk.txi + 1 < s.blk.txFrameLen.toNat := by omega
    simp [Block.transmit_engState_more hlast, hsending, hlast, hlt]

/-- Settles O25, by the receive step's two branches. -/
theorem receiveStoresOrDrops : Obligations.ReceiveStoresOrDrops := by
  intro s b hhost
  refine ⟨receive b s, congrArg _ (lineByte_of_not_collecting hhost b), receive_cfg b s, receive_host b s,
    receive_env b s, (receive_of_not_capturing · b), fun hcapturing hroom => ?_, fun hcapturing hfull => ?_⟩
  · rw [receive_of_capturing hcapturing, State.setBlk_blk]
    refine ⟨(Block.byte_receive_of_room hroom b _).trans (if_pos rfl),
      fun a ha => (Block.byte_receive_of_room hroom b a).trans (if_neg ha), ?_⟩
    rw [Block.receive_of_room hroom]
    rfl
  · rw [receive_of_capturing hcapturing, State.setBlk_blk, Block.receive_of_full hfull]

/-- Settles O26: the exchange's code decides between a failure of its own and PARSE's outcome. -/
theorem idleCompletesExchange : Obligations.IdleCompletesExchange := by
  intro s hhost hcapturing hstate
  refine ⟨s.setBlk (finishExchange s.cfg s.blk),
    congrArg _ ((lineQuiet_of_not_collecting hhost).trans (lineIdle_completes hcapturing hstate)), rfl, rfl, rfl,
    fun hzero => ?_, fun hpos hovf => ?_, fun hpos hovf => ?_⟩
  · exact finishExchange_fails (exchangeCode_noResponse hzero) rfl
  · exact finishExchange_fails (exchangeCode_overflow hpos hovf) rfl
  · exact finishExchange_parses (exchangeCode_parse hpos hovf)

/-- Settles O60, by the laws of the character and of its reading. -/
theorem uartCarriesBytes : Obligations.UartCarriesBytes :=
  ⟨fun b => ⟨uartByte_uartChar b, uartChar_start b, uartChar_stop b, fun _ => uartChar_data b⟩,
    fun s _ hstop => congrArg Host.Outcome.next (lineChar_of_stop_low hstop s)⟩

end Sys2Proof.Proofs
end

section
/-!
Laws of the path sandbox: splitting at a separator undoes joining with it, cleaning keeps only proper segments and
changes nothing of a path it has cleaned, and what an accepted path is.
-/
namespace Sys2Proof.Machine

/-! ### Segments joined and split again (R263) -/

theorem joinWith_eq_intercalate (sep : Byte) (segs : List Bytes) : joinWith sep segs = [sep].intercalate segs := by
  induction segs with
  | nil => rfl
  | cons seg segs ih =>
    cases segs with
    | nil => exact List.intercalate_singleton.symm
    | cons next segs => simp [joinWith, ih, List.intercalate_cons_cons]

theorem splitAt_joinWith {sep : Byte} {segs : List Bytes} (hne : segs ≠ []) (hsep : ∀ seg ∈ segs, sep ∉ seg) :
    splitAt sep (joinWith sep segs) = segs := by
  rw [splitAt_eq_splitOn, joinWith_eq_intercalate]
  exact List.splitOn_intercalate sep hsep hne

/-! ### Lexical cleaning (R263) -/

/-- A segment that cleaning keeps. -/
structure ProperSegment (seg : Bytes) : Prop where
  notEmpty  : seg ≠ []
  notDot    : seg ≠ [0x2E]
  notDotDot : seg ≠ [0x2E, 0x2E]
  noSlash   : slash ∉ seg

theorem cleanSegment_proper {seg : Bytes} (h : ProperSegment seg) (kept : List Bytes) :
    cleanSegment kept seg = seg :: kept := by
  rw [cleanSegment, if_neg (not_or.2 ⟨h.notEmpty, h.notDot⟩), if_neg h.notDotDot]

theorem cleanSegment_keeps_proper {kept : List Bytes} {seg : Bytes} (hkept : ∀ k ∈ kept, ProperSegment k)
    (hseg : slash ∉ seg) : ∀ k ∈ cleanSegment kept seg, ProperSegment k := by
  unfold cleanSegment
  split_ifs with hskip hdotdot
  · exact hkept
  · exact fun k hk => hkept k (List.mem_of_mem_tail hk)
  · obtain ⟨hempty, hdot⟩ := not_or.1 hskip
    exact List.forall_mem_cons.2 ⟨⟨hempty, hdot, hdotdot, hseg⟩, hkept⟩

theorem cleanSegments_proper (x : Bytes) : ∀ seg ∈ cleanSegments x, ProperSegment seg := by
  have hfold : ∀ k ∈ (splitAt slash x).foldl cleanSegment [], ProperSegment k :=
    List.foldlRecOn (motive := fun kept => ∀ k ∈ kept, ProperSegment k) _ cleanSegment (by simp)
      fun _ hkept seg hseg => cleanSegment_keeps_proper hkept (splitAt_noSep slash x seg hseg)
  exact fun seg hseg => hfold seg (List.mem_reverse.1 hseg)

theorem foldl_cleanSegment_proper {segs : List Bytes} (h : ∀ seg ∈ segs, ProperSegment seg) (kept : List Bytes) :
    segs.foldl cleanSegment kept = segs.reverse ++ kept := by
  induction segs generalizing kept with
  | nil => rfl
  | cons seg segs ih =>
    obtain ⟨hseg, hsegs⟩ := List.forall_mem_cons.1 h
    rw [List.foldl_cons, cleanSegment_proper hseg, ih hsegs]
    simp

/-- Proper segments are all that a path joined from them is cleaned to. -/
theorem cleanSegments_joinWith {segs : List Bytes} (h : ∀ seg ∈ segs, ProperSegment seg) :
    cleanSegments (slash :: joinWith slash segs) = segs := by
  by_cases hne : segs = []
  · subst hne
    rfl
  · have hsplit : splitAt slash (slash :: joinWith slash segs) = [] :: segs := by
      rw [splitAt, if_pos rfl, splitAt_joinWith hne fun seg hseg => (h seg hseg).noSlash]
    rw [cleanSegments, hsplit, List.foldl_cons, foldl_cleanSegment_proper h]
    simp [cleanSegment]

theorem clean_clean (x : Bytes) : clean (clean x) = clean x :=
  congrArg (slash :: joinWith slash ·) (cleanSegments_joinWith (cleanSegments_proper x))

/-! ### Normalize (R262) -/

theorem inRoot_iff (p : Bytes) : inRoot p = true ↔ p = root ∨ ∃ q, p = root ++ slash :: q := by
  rw [inRoot, Bool.or_eq_true, beq_iff_eq, List.isPrefixOf_iff_prefix]
  refine or_congr_right (exists_congr fun q => ?_)
  rw [List.append_assoc, eq_comm, List.singleton_append]

theorem normalizePath_ok_iff (u p : Bytes) :
    normalizePath u = .ok p ↔ u.head? ≠ some slash ∧ p = clean (root ++ slash :: u) ∧ inRoot p = true := by
  unfold normalizePath
  split_ifs with habsolute hin
  · simp [habsolute]
  · simp only [Except.ok.injEq]
    exact ⟨fun h => h ▸ ⟨habsolute, rfl, hin⟩, fun ⟨_, hp, _⟩ => hp.symm⟩
  · exact iff_of_false nofun fun ⟨_, hp, hroot⟩ => hin (hp ▸ hroot)

end Sys2Proof.Machine
end

section
/-!
Laws of an Upload: how it begins, and what each end of a chunk's exchange does.
-/
namespace Sys2Proof
open Sys2Proof.Machine

/-- The session of an Upload before its first chunk. -/
def Session.initial (p data : Bytes) : Session := ⟨p, false, 0, [], data, data.length⟩

/-- The session while the next of its chunks is on its way. -/
def Session.withNextChunk (u : Session) : Session :=
  { u with chunk := u.rest.take chunkSize, rest := u.rest.drop chunkSize, firstChunkSent := true }

/-- The session once its chunk is acknowledged. -/
def Session.acknowledged (u : Session) : Session := { u with bytesSent := u.bytesSent + u.chunk.length }

end Sys2Proof

namespace Sys2Proof.Machine
open Sys2Proof.Claims

/-! ### Sending a chunk (R271, R272, R277) -/

theorem exchanging_sendChunk (u : Session) (s : State) :
    exchanging (sendChunk u s) (.upload u.withNextChunk) 0x06
      (u.remotePath ++ [0x00, if u.firstChunkSent then 0x00 else 0x01] ++ u.rest.take chunkSize) := by
  rw [List.append_assoc]
  rfl

/-- Where the bytes acknowledged and the bytes left make up the source, so they do with a chunk on its way. -/
theorem accounts_withNextChunk {u : Session} (h : u.bytesSent + u.rest.length = u.total) :
    accounts u.withNextChunk := by
  simp only [accounts, Session.withNextChunk, List.length_take, List.length_drop]
  omega

/-! ### The beginning (R270) -/

/-- The last result and progress are forgotten (R261). -/
def State.forgetResult (s : State) : State := { s with host := { s.host with result := none, progress := [] } }

theorem request_of_free {s : State} (h : s.host.free = true) (op : HostOp) : request op s = startOp op s := if_pos h

theorem startUpload_of_nonempty {p data : Bytes} (hlen : p.length ≤ pathMax) (hdata : data ≠ []) (s : State) :
    startUpload (some data) p s = sendChunk (.initial p data) s := by
  cases data with
  | nil => exact absurd rfl hdata
  | cons => exact if_neg (Nat.not_lt.2 hlen)

theorem startOp_upload_of_ok {user p : Bytes} (h : normalizePath user = .ok p) (source : Option Bytes) (s : State) :
    startOp (.upload source user) s = startUpload source p s.forgetResult := by
  simp only [startOp, h]
  rfl

theorem request_upload_sends {s : State} {user p data : Bytes} (hfree : s.host.free = true)
    (hpath : normalizePath user = .ok p) (hlen : p.length ≤ pathMax) (hdata : data ≠ []) :
    request (.upload (some data) user) s = sendChunk (.initial p data) s.forgetResult := by
  rw [request_of_free hfree, startOp_upload_of_ok hpath, startUpload_of_nonempty hlen hdata]

/-! ### The end of a chunk's exchange (R273, R274) -/

/-- The session's progress is reported. -/
def State.report (u : Session) (s : State) : State :=
  { s with host := { s.host with progress := s.host.progress ++ [(u.bytesSent, u.total)] } }

theorem exchangeOk_upload_acknowledged {body : Bytes} (h : ∃ x y, body = x ++ doneText ++ y) (u : Session) (s : State) :
    exchangeOk (.upload u) body s = chunkAcknowledged u s := if_pos ((containsSeq_iff _ _).2 h)

theorem exchangeOk_upload_unexpected {body : Bytes} (h : ¬∃ x y, body = x ++ doneText ++ y) (u : Session) (s : State) :
    exchangeOk (.upload u) body s = s.finish (.uploadFailed (.unexpectedResult body) u.bytesSent) :=
  if_neg (mt (containsSeq_iff _ _).1 h)

theorem chunkAcknowledged_last {u : Session} (h : u.rest = []) (s : State) :
    chunkAcknowledged u s =
      (s.report u.acknowledged).finish (.uploaded u.acknowledged.bytesSent) := if_pos h

theorem chunkAcknowledged_more {u : Session} (h : u.rest ≠ []) (s : State) :
    chunkAcknowledged u s = sendChunk u.acknowledged (s.report u.acknowledged) := if_neg h

/-- An acknowledgement adds one report, of the bytes it counts, and leaves what is outside the host. -/
theorem chunkAcknowledged_reports (u : Session) (s : State) :
    (chunkAcknowledged u s).host.progress = s.host.progress ++ [(u.bytesSent + u.chunk.length, u.total)] ∧
      onlyHost s (chunkAcknowledged u s) := by
  by_cases h : u.rest = []
  · rw [chunkAcknowledged_last h]
    exact ⟨rfl, rfl, rfl, rfl⟩
  · rw [chunkAcknowledged_more h]
    exact ⟨rfl, rfl, rfl, rfl⟩

end Sys2Proof.Machine
end

section
/-!
The family `44_transfer_procedures.md`: the path sandbox and Upload.
-/
namespace Sys2Proof.Proofs
open Sys2Proof.Machine Sys2Proof.Claims

/-- Settles O56: an accepted path passed the root test and is a cleaned path, and cleaning is idempotent. -/
theorem normalizeIsSound : Obligations.NormalizeIsSound := by
  refine ⟨fun u p hok => ?_, by decide, by decide, by decide, by decide, by decide, by decide, by decide, by decide⟩
  obtain ⟨hrelative, hclean, hin⟩ := (normalizePath_ok_iff u p).1 hok
  exact ⟨(inRoot_iff p).1 hin, hclean ▸ clean_clean _, hrelative⟩

/-- Settles O59, by whether the body holds "done" and whether bytes are left. -/
theorem acknowledgementsDriveUpload : Obligations.AcknowledgementsDriveUpload := by
  refine ⟨fun s user p data hfree hpath hlen hdata => ⟨_, rfl, (Session.initial p data).withNextChunk, ?_⟩,
    fun s u body e => ⟨fun hdone => ?_, fun hother => ?_, rfl, ⟨rfl, rfl, rfl⟩, rfl⟩⟩
  · rw [request_upload_sends hfree hpath hlen hdata]
    exact ⟨rfl, rfl, rfl, accounts_withNextChunk (Nat.zero_add _), rfl⟩
  · rw [exchangeOk_upload_acknowledged hdone]
    obtain ⟨hprogress, honly⟩ := chunkAcknowledged_reports u s
    refine ⟨hprogress, honly, fun hrest => ?_, fun hrest => ?_⟩
    · rw [chunkAcknowledged_last hrest]
      refine ⟨rfl, rfl, fun hacc => ?_⟩
      simpa [accounts, hrest] using hacc
    · rw [chunkAcknowledged_more hrest]
      exact ⟨exchanging_sendChunk _ _, accounts_withNextChunk (u := u.acknowledged)⟩
  · rw [exchangeOk_upload_unexpected hother]
    exact ⟨⟨rfl, ⟨rfl, rfl, rfl⟩, rfl⟩, rfl⟩

end Sys2Proof.Proofs
end

section
/-!
Laws of the bus's error response: the accesses that get one, and that every other access is answered without one.
-/
namespace Sys2Proof.Machine

/-- From `s`, the access at `addr` ends in `t`: it gets a bus error (R310) where `cause` holds, and no error elsewhere. -/
structure State.ErrsWhen (s : State) (addr : Nat) (cause : Prop) (t : State) : Prop where
  errs : cause → t = s.busError addr
  answers : ¬cause → ∀ r, t.host.response ≠ .fault r

section ErrsWhen
variable {s t : State} {addr : Nat} {cause cause' : Prop}

theorem State.errsWhen_busError (h : cause) : s.ErrsWhen addr cause (s.busError addr) :=
  ⟨fun _ => rfl, absurd h⟩

theorem State.errsWhen_answered (h : ¬cause) (ht : ∀ r, t.host.response ≠ .fault r) : s.ErrsWhen addr cause t :=
  ⟨(absurd · h), fun _ => ht⟩

theorem State.errsWhen_wrote (h : ¬cause) (b : Block) : s.ErrsWhen addr cause (s.wrote b) :=
  errsWhen_answered h fun _ => by simp

theorem State.ErrsWhen.congr (h : s.ErrsWhen addr cause t) (hc : cause' ↔ cause) : s.ErrsWhen addr cause' t :=
  ⟨fun hc' => h.errs (hc.1 hc'), fun hc' => h.answers (mt hc.2 hc')⟩

theorem State.ErrsWhen.response_iff (h : s.ErrsWhen addr cause t) :
    t.host.response = .fault (.busError addr) ↔ cause := by
  refine ⟨fun hr => ?_, fun hc => by rw [h.errs hc, busError_response]⟩
  by_contra hc
  exact h.answers hc _ hr

/-- An access that ends with an error is one that got a bus error. -/
theorem State.ErrsWhen.eq_busError (h : s.ErrsWhen addr cause t) {r : Fault} (hr : t.host.response = .fault r) :
    t = s.busError addr := by
  refine h.errs ?_
  by_contra hc
  exact h.answers hc r hr

end ErrsWhen

/-! ### The registers -/

/-- The registers whose writes get a bus error while BUSY = 1 (R41-R45, R50). -/
def busyGuarded (c : Config) (off : Nat) : Prop :=
  off = 0x14 ∨ off = 0x18 ∨ off = 0x1C ∨ off = 0x24 ∨ (c.enginePresent = true ∧ (off = 0x44 ∨ off = 0x48))

/-- Every read of a register is answered, whatever BUSY is (R38). -/
theorem csrRead_errsWhen (off : Nat) (s : State) : s.ErrsWhen off False (csrRead off s) := by
  refine State.errsWhen_answered id fun r => ?_
  unfold csrRead
  split
  · simp
  · split <;> simp

theorem unlessBusy_errsWhen (off : Nat) (b : Block) (s : State) :
    s.ErrsWhen off (s.blk.busy = true) (unlessBusy off b s) := by
  unfold unlessBusy
  split
  · exact State.errsWhen_busError ‹_›
  · exact State.errsWhen_wrote ‹_› b

theorem csrWrite_errsWhen {off : Nat} (h : off ≠ 0x18) (v : Word) (s : State) :
    s.ErrsWhen off (s.blk.busy = true ∧ busyGuarded s.cfg off) (csrWrite off v s) := by
  unfold csrWrite busyGuarded
  split
  · exact State.errsWhen_wrote (by simp) _
  · exact (unlessBusy_errsWhen _ _ s).congr (by simp)
  · exact (unlessBusy_errsWhen _ _ s).congr (by simp)
  · exact (unlessBusy_errsWhen _ _ s).congr (by simp)
  · split
    · exact (unlessBusy_errsWhen _ _ s).congr (by simp [*])
    · exact State.errsWhen_answered (by simp [*]) (by simp)
  · split
    · exact (unlessBusy_errsWhen _ _ s).congr (by simp [*])
    · exact State.errsWhen_answered (by simp [*]) (by simp)
  next _ h14 h1C h24 h44 h48 =>
    refine State.errsWhen_answered ?_ (by simp)
    rintro ⟨_, rfl | rfl | rfl | rfl | ⟨_, rfl | rfl⟩⟩
    exacts [h14 rfl, h rfl, h1C rfl, h24 rfl, h44 rfl, h48 rfl]

/-- Every CTRL write is answered, whatever BUSY is (R35). -/
theorem exec_decodeCtrl_errsWhen (addr : Nat) (v : Word) (s : State) :
    Answers (exec (decodeCtrl v) s) (s.ErrsWhen addr False) := by
  by_cases h : v.extractLsb' 0 4 = 0x0#4
  · exact ⟨_, exec_decodeCtrl_nop h s, State.errsWhen_wrote id _⟩
  · exact ⟨_, exec_decodeCtrl_command h s, State.errsWhen_wrote id _⟩

theorem exec_crcUpdate_errsWhen (data : Byte) (s : State) :
    Answers (exec (.crcUpdate data) s) (s.ErrsWhen 0x18 (s.blk.busy = true)) := by
  by_cases hb : s.blk.busy = true
  · exact ⟨_, exec_crcUpdate_busy hb data, State.errsWhen_busError hb⟩
  · exact ⟨_, exec_crcUpdate_free (Bool.eq_false_iff.2 hb) data, State.errsWhen_wrote hb _⟩

/-! ### The buffers -/

theorem bufRead_errsWhen {i n size : Nat} (h : i + n ≤ size) (a : Nat) (s : State) :
    s.ErrsWhen a False (bufRead a n i size s) := by
  refine State.errsWhen_answered id fun r => ?_
  rw [bufRead, if_neg (by omega)]
  split <;> simp

theorem bufWrite_errsWhen {i n size : Nat} (h : i + n ≤ size) (a : Nat) (v : Word) (s : State) :
    s.ErrsWhen a (s.blk.busy = true) (bufWrite a n i size v s) := by
  rw [bufWrite, if_neg (by omega)]
  split
  · exact State.errsWhen_busError ‹_›
  · exact State.errsWhen_wrote ‹_› _

/-! ### The address space (R80-R87) -/

/-- Every address lies in one window. -/
theorem windowOf_cases (a : Nat) :
    (a ≤ 0xFF ∧ windowOf a = .csr) ∨
    (0x1000 ≤ a ∧ a ≤ 0x1FFF ∧ windowOf a = .tx (a - 0x1000)) ∨
    (0x10000 ≤ a ∧ a ≤ 0x1FFFF ∧ windowOf a = .rx (a - 0x10000)) ∨
    (0xFF < a ∧ ¬(0x1000 ≤ a ∧ a ≤ 0x1FFF) ∧ ¬(0x10000 ≤ a ∧ a ≤ 0x1FFFF) ∧ windowOf a = .outside) := by
  unfold windowOf txBase rxBase
  split
  · exact .inl ⟨‹_›, rfl⟩
  · split
    next h => exact .inr (.inl ⟨h.1, h.2, rfl⟩)
    · split
      next h => exact .inr (.inr (.inl ⟨h.1, h.2, rfl⟩))
      · exact .inr (.inr (.inr ⟨by omega, ‹_›, ‹_›, rfl⟩))

/-- The accesses of `n` bytes at address `a` that a block with BUSY = 0 answers: an aligned word of the registers, or a byte
or an aligned word inside a buffer. -/
def answered (c : Config) (a n : Nat) : Prop :=
  (n = 4 ∧ a % 4 = 0 ∧ a ≤ 0xFF) ∨
  ((n = 1 ∨ (n = 4 ∧ a % 4 = 0)) ∧
    ((0x1000 ≤ a ∧ a ≤ 0x1FFF ∧ a + n ≤ 0x1000 + c.txbufSize) ∨
      (0x10000 ≤ a ∧ a ≤ 0x1FFFF ∧ a + n ≤ 0x10000 + c.rxbufSize)))

/-- Where a plain access leads: to a bus error, to a register, or inside a buffer. -/
theorem memAccess_cases (a n : Nat) (s : State) :
    (¬answered s.cfg a n ∧ memRead a n s = s.busError a ∧ ∀ v, memWrite a n v s = s.busError a) ∨
    (answered s.cfg a n ∧ a ≤ 0xFF ∧ memRead a n s = csrRead a s ∧ ∀ v, memWrite a n v s = csrWrite a v s) ∨
    (answered s.cfg a n ∧ 0xFF < a ∧ ∃ i size, i + n ≤ size ∧ memRead a n s = bufRead a n i size s ∧
      ∀ v, memWrite a n v s = bufWrite a n i size v s) := by
  unfold answered
  by_cases hbad : badShape a n = true
  · have hshape := badShape_iff.1 hbad
    exact .inl ⟨by omega, if_pos hbad, fun _ => if_pos hbad⟩
  · have hshape := mt badShape_iff.2 hbad
    obtain ⟨ha, hwin⟩ | ⟨hlo, hhi, hwin⟩ | ⟨hlo, hhi, hwin⟩ | ⟨ha, htx, hrx, hwin⟩ := windowOf_cases a
    all_goals simp only [memRead, memWrite, if_neg hbad, hwin]
    · by_cases hn : n = 4
      · exact .inr (.inl ⟨by omega, ha, if_neg (not_not.2 hn), fun _ => if_neg (not_not.2 hn)⟩)
      · exact .inl ⟨by omega, if_pos hn, fun _ => if_pos hn⟩
    · by_cases hfit : a - 0x1000 + n ≤ s.cfg.txbufSize
      · exact .inr (.inr ⟨by omega, by omega, _, _, hfit, rfl, fun _ => rfl⟩)
      · exact .inl ⟨by omega, if_pos (by omega), fun _ => if_pos (by omega)⟩
    · by_cases hfit : a - 0x10000 + n ≤ s.cfg.rxbufSize
      · exact .inr (.inr ⟨by omega, by omega, _, _, hfit, rfl, fun _ => rfl⟩)
      · exact .inl ⟨by omega, if_pos (by omega), fun _ => if_pos (by omega)⟩
    · exact .inl ⟨by omega, trivial, fun _ => trivial⟩

theorem memRead_errsWhen (a n : Nat) (s : State) : s.ErrsWhen a (¬answered s.cfg a n) (memRead a n s) := by
  obtain ⟨h, hread, _⟩ | ⟨h, _, hread, _⟩ | ⟨h, _, i, size, hfit, hread, _⟩ := memAccess_cases a n s
  · exact hread ▸ State.errsWhen_busError h
  · exact hread ▸ (csrRead_errsWhen a s).congr (by simp [h])
  · exact hread ▸ (bufRead_errsWhen hfit a s).congr (by simp [h])

theorem memWrite_errsWhen {a n : Nat} (hcrc : ¬(n = 4 ∧ a = 0x18)) (v : Word) (s : State) :
    s.ErrsWhen a (¬answered s.cfg a n ∨ (s.blk.busy = true ∧ (0xFF < a ∨ busyGuarded s.cfg a))) (memWrite a n v s) := by
  obtain ⟨h, _, hwrite⟩ | ⟨h, hcsr, _, hwrite⟩ | ⟨h, hbuf, i, size, hfit, _, hwrite⟩ := memAccess_cases a n s
  · exact hwrite v ▸ State.errsWhen_busError (.inl h)
  · have hword : a ≠ 0x18 := by unfold answered at h; omega
    exact hwrite v ▸ (csrWrite_errsWhen hword v s).congr (by simp [h, Nat.not_lt.2 hcsr])
  · exact hwrite v ▸ (bufWrite_errsWhen hfit a v s).congr (by simp [h, hbuf])

/-- Why an access gets a bus error. -/
def busErrorCause (s : State) (a : Access) : Prop :=
  ¬answered s.cfg a.off a.size ∨
    (a.dir = .W ∧ s.blk.busy = true ∧ (0xFF < a.off ∨ busyGuarded s.cfg a.off))

/-- Every bus access is answered, with an error exactly where there is a cause. -/
theorem busAccess_errsWhen (a : Access) (s : State) :
    Answers (busAccess a s) (s.ErrsWhen a.off (busErrorCause s a)) := by
  obtain ⟨dir, size, off, v⟩ := a
  cases dir with
  | R => exact ⟨_, busAccess_read size off v s, (memRead_errsWhen off size s).congr (by simp [busErrorCause])⟩
  | W =>
    by_cases hins : size = 4 ∧ (off = 0x00 ∨ off = 0x18)
    · obtain ⟨rfl, rfl | rfl⟩ := hins
      · obtain ⟨t, ht, herr⟩ := exec_decodeCtrl_errsWhen 0x00 v s
        exact ⟨t, (busAccess_ctrl v s).trans ht, herr.congr (by simp [busErrorCause, answered, busyGuarded])⟩
      · obtain ⟨t, ht, herr⟩ := exec_crcUpdate_errsWhen (lane v 0) s
        exact ⟨t, (busAccess_crcData v s).trans ht, herr.congr (by simp [busErrorCause, answered, busyGuarded])⟩
    · exact ⟨_, busAccess_write v s hins,
        (memWrite_errsWhen (fun h => hins ⟨h.1, .inr h.2⟩) v s).congr (by simp [busErrorCause])⟩

/-- R311's causes that depend on neither BUSY nor the direction, where the buffers lie in their windows. A byte or an aligned
word that no other cause shuts out is answered exactly if its last byte is. -/
theorem not_answered_iff {c : Config} (hc : c.Legal) (a n : Nat) :
    ¬answered c a n ↔
      (∃ k < n, 0x000FF < a + k ∧ ¬(0x01000 ≤ a + k ∧ a + k ≤ 0x01FFF) ∧ ¬(0x10000 ≤ a + k ∧ a + k ≤ 0x1FFFF)) ∨
      (∃ k < n, 0x01000 + c.txbufSize ≤ a + k ∧ a + k ≤ 0x01FFF) ∨
      (∃ k < n, 0x10000 + c.rxbufSize ≤ a + k ∧ a + k ≤ 0x1FFFF) ∨
      (n = 1 ∧ a ≤ 0x000FF) ∨ (n = 4 ∧ a % 4 ≠ 0) ∨ (n ≠ 1 ∧ n ≠ 4) := by
  obtain ⟨_, htx, _, hrx, _⟩ := hc
  unfold answered
  constructor
  · intro h
    by_cases hshape : (n = 1 ∧ 0xFF < a) ∨ (n = 4 ∧ a % 4 = 0)
    · obtain ⟨m, rfl⟩ : ∃ m, n = m + 1 := ⟨n - 1, by omega⟩
      have hlast : (0xFF < a + m ∧ ¬(0x01000 ≤ a + m ∧ a + m ≤ 0x01FFF) ∧ ¬(0x10000 ≤ a + m ∧ a + m ≤ 0x1FFFF)) ∨
          (0x01000 + c.txbufSize ≤ a + m ∧ a + m ≤ 0x01FFF) ∨ (0x10000 + c.rxbufSize ≤ a + m ∧ a + m ≤ 0x1FFFF) := by
        omega
      exact hlast.imp (⟨m, m.lt_add_one, ·⟩) (.imp (⟨m, m.lt_add_one, ·⟩) fun h => .inl ⟨m, m.lt_add_one, h⟩)
    · omega
  · rintro (⟨k, hk, h⟩ | ⟨k, hk, h⟩ | ⟨k, hk, h⟩ | h)
    all_goals omega

end Sys2Proof.Machine
end

section
/-!
Laws of DONE, CMD_OVERRUN and the interrupt: what completes a command, and what clears CMD_OVERRUN.
-/
namespace Sys2Proof.Machine
open Sys2Proof.Claims

/-- From `b` to `b'` a command completes (R300): DONE is set, and what only host writes to CTRL and STATUS concern is
kept. -/
structure Block.Completes (b b' : Block) : Prop where
  done : b'.done = true
  ie : b'.ie = b.ie
  cmdOverrun : b'.cmdOverrun = b.cmdOverrun

theorem crcInit_completes (b : Block) : b.Completes (crcInit b) := ⟨rfl, rfl, rfl⟩

theorem illegal_completes (b : Block) : b.Completes (illegal b) := ⟨rfl, rfl, rfl⟩

theorem build_completes (c : Config) (b : Block) : b.Completes (build c b) := by
  unfold build
  split <;> exact ⟨rfl, rfl, rfl⟩

theorem parse_completes (c : Config) (b : Block) : b.Completes (parse c b) := by
  unfold parse parseFields
  split <;> exact ⟨rfl, rfl, rfl⟩

theorem check_completes (c : Config) (b : Block) : b.Completes (check c b) := by
  unfold check
  simp only
  split
  · exact ⟨rfl, rfl, rfl⟩
  · split <;> exact ⟨rfl, rfl, rfl⟩

theorem finishExchange_completes (c : Config) (b : Block) : b.Completes (finishExchange c b) := by
  unfold finishExchange
  simp only
  split <;> exact ⟨rfl, rfl, rfl⟩

/-- XCHG ends at its acceptance, or an exchange starts (R181, R221). -/
theorem xchg_completes_or_starts (c : Config) (b : Block) :
    (b.Completes (xchg c b) ∧ (xchg c b).busy = b.busy) ∨ xchg c b = b.appendChecksum.startExchange := by
  unfold xchg
  split
  · exact .inl ⟨illegal_completes b, rfl⟩
  · split
    · exact .inr rfl
    · exact .inl ⟨⟨rfl, rfl, rfl⟩, rfl⟩

theorem xchg_cmdOverrun (c : Config) (b : Block) : (xchg c b).cmdOverrun = b.cmdOverrun := by
  obtain ⟨h, _⟩ | h := xchg_completes_or_starts c b
  · exact h.cmdOverrun
  · rw [h, Block.startExchange_cmdOverrun, Block.appendChecksum_cmdOverrun]

@[simp] theorem wrote_irq (b : Block) (s : State) : (s.wrote b).irq = (b.ie && b.done) := rfl

@[simp] theorem setBlk_irq (b : Block) (s : State) : (s.setBlk b).irq = (b.ie && b.done) := rfl

/-- After XCHG the block is done or busy, whichever way its acceptance goes. -/
theorem xchg_done {c : Config} {b : Block} (hbusy : b.busy = false) (hdone : b.done = false) :
    (xchg c b).done = !(xchg c b).busy ∧ (xchg c b).ie = b.ie := by
  obtain ⟨h, hkept⟩ | h := xchg_completes_or_starts c b
  · exact ⟨by rw [h.done, hkept, hbusy, Bool.not_false], h.ie⟩
  · simp [h, hdone]

/-- An accepted command that completes at once raises the interrupt where the write enables it (R322). -/
theorem issue_completes {s : State} {cmd : Config → Block → Block} (hb : s.blk.busy = false)
    (hcmd : ∀ b : Block, b.Completes (cmd s.cfg b)) (ie : Bool) :
    (s.issue ie cmd).irq = ie ∧ (s.issue ie cmd).blk.done = true := by
  rw [issue_free hb, wrote_irq, State.wrote_blk, (hcmd _).done, (hcmd _).ie]
  exact ⟨Bool.and_true ie, rfl⟩

/-- A move that clears CMD_OVERRUN is a host write of 1 to its bit of STATUS, or a reset (R37, R341). -/
theorem Block.Move.cmdOverrun_cleared {c : Config} {b b' : Block} (h : Block.Move c b b') (hset : b.cmdOverrun = true)
    (hclear : b'.cmdOverrun = false) :
    (∃ v : Word, v.getLsbD 2 = true ∧ b' = b.writeStatus v) ∨ b' = Block.reset c (b.epoch + 1) := by
  have hkept : b'.cmdOverrun ≠ b.cmdOverrun := by simp [hset, hclear]
  cases h with
  | status v => exact .inl ⟨v, by simpa [hset] using hclear, rfl⟩
  | reset => exact .inr rfl
  | overrun => cases hclear
  | build => exact absurd (build_completes c _).cmdOverrun hkept
  | parse => exact absurd (parse_completes c _).cmdOverrun hkept
  | check => exact absurd (check_completes c _).cmdOverrun hkept
  | xchg => exact absurd (xchg_cmdOverrun c _) hkept
  | complete => exact absurd (finishExchange_completes c b).cmdOverrun hkept
  | store a n v =>
    rw [b.store_frame] at hkept
    exact absurd rfl hkept
  | receive byte =>
    unfold Block.receive at hkept
    split at hkept <;> exact absurd rfl hkept
  | stay | enable | crcInit | illegal | crcUpdate | crc | txLen | rxLen | timeout | divisor | transmit =>
    exact absurd rfl hkept

end Sys2Proof.Machine
end

section
/-!
The family `60_exceptions.md`: bus errors, the interrupt and CMD_OVERRUN.
-/
namespace Sys2Proof.Proofs
open Sys2Proof.Machine Sys2Proof.Claims

/-- Settles O30: an access whose response is an error is one that got a bus error, which changes the response only. -/
theorem busErrorHasNoEffect : Obligations.BusErrorHasNoEffect := by
  intro s t a r hacc hr
  obtain ⟨u, hu, herr⟩ := busAccess_errsWhen a s
  obtain rfl := Host.Outcome.next.inj (hu.symm.trans hacc)
  rw [herr.eq_busError hr]
  exact ⟨rfl, rfl, rfl, rfl, rfl⟩

/-- Settles O31: an access gets a bus error where the address space does not answer it, or BUSY shuts out the write. -/
theorem busErrorCauses : Obligations.BusErrorCauses := by
  intro s a hc
  obtain ⟨t, ht, herr⟩ := busAccess_errsWhen a s
  refine ⟨t, ht, herr.response_iff.trans ?_⟩
  rw [busErrorCause, not_answered_iff hc]
  simp only [busyGuarded, and_or_left, or_assoc]

/-- Settles O38, by what completes a command: every atomic command, an XCHG that starts no exchange, and the idle step. -/
theorem irqRisesWithCompletion : Obligations.IrqRisesWithCompletion := by
  refine ⟨fun s => Bool.and_eq_true_iff, fun c => rfl, fun s ie bit0 low i hb hi => ?_, fun s ie hb => ?_,
    fun s hhost hcap hstate => ?_⟩
  · simp only [List.mem_cons, List.not_mem_nil, or_false] at hi
    obtain rfl | rfl | rfl | rfl | rfl | rfl := hi
    · exact ⟨_, rfl, issue_completes hb crcInit_completes ie⟩
    · exact ⟨_, rfl, issue_completes hb (build_completes s.cfg) ie⟩
    · exact ⟨_, rfl, issue_completes hb (parse_completes s.cfg) ie⟩
    · exact ⟨_, rfl, issue_completes hb (check_completes s.cfg) ie⟩
    · exact ⟨_, rfl, issue_completes hb illegal_completes ie⟩
    · exact ⟨_, rfl, issue_completes hb illegal_completes ie⟩
  · obtain ⟨hdone, hie⟩ := xchg_done (c := s.cfg) (b := accepted s ie) hb rfl
    refine ⟨_, congrArg Host.Outcome.next (issue_free hb ie _), hdone, ?_⟩
    exact congrArg₂ (· && ·) hie hdone
  · have hends := (lineQuiet_of_not_collecting hhost).trans (lineIdle_completes hcap hstate)
    have h := finishExchange_completes s.cfg s.blk
    exact ⟨_, congrArg Host.Outcome.next hends, by simp [h.done, h.ie]⟩

/-- Settles O39, by what `State.issue` does to a busy block, and by the moves of a step. -/
theorem overrunStaysUntilCleared : Obligations.OverrunStaysUntilCleared := by
  refine ⟨fun s v hb hcmd => ?_, fun s t hstep => (step_move hstep).2.cmdOverrun_cleared⟩
  rw [busAccess_ctrl, exec_decodeCtrl_command hcmd, issue_busy hb]

end Sys2Proof.Proofs
end

section
/-!
Laws of decoding an encoded instruction: a CTRL write and a command frame.
-/
namespace Sys2Proof.Proofs
open Sys2Proof.Machine

/-- A byte comes back from the lowest lane of the word that carries it (R85). -/
@[simp] theorem lane_setWidth (b : Byte) : lane (b.setWidth 32) 0 = b := by
  refine BitVec.eq_of_getLsbD_eq fun k hk => ?_
  simp [lane, hk]
  omega

theorem decode_ctrlWrite (ie : Bool) (code : BitVec 4) :
    decode (ctrlWrite ie code) = .ok (decodeCtrl (ctrlValue ie code)) := rfl

/-- The checksum of an encoded frame is dropped, and its payload is read as the opcode says (R120, R127). -/
theorem decode_encodeFrame (op : Byte) (p : Bytes) : decode (.frame (encodeFrame op p)) = decodeWire op p := by
  simp only [decode, decodeFrame, frameParts_encodeFrame]

theorem decodeWire_upload {p : Bytes} (flag : Byte) (chunk : Bytes) (h : p.all (· != 0x00#8) = true) :
    decodeWire 0x06 (uploadPayload p flag chunk) = .ok (.upload p flag chunk) := by
  simp [decodeWire, splitUpload_payload flag chunk h]

/-- The path of a well-formed Upload holds no 0x00, so that its payload can be taken apart. -/
theorem upload_path_of_wf {p chunk : Bytes} {flag : Byte} (h : (Instr.upload p flag chunk).wf = true) :
    p.all (· != 0x00#8) = true := by
  simp only [Instr.wf, Bool.and_eq_true] at h
  obtain ⟨⟨⟨_, hpath⟩, _⟩, _⟩ := h
  exact hpath

end Sys2Proof.Proofs
end

section
/-!
The family `30_encoding.md`: decoding and encoding.
-/
namespace Sys2Proof.Proofs
open Sys2Proof.Machine

/-- Settles O1: a CTRL value gives its two fields back, and a frame its opcode and payload. -/
theorem decodeOfEncode : Obligations.DecodeOfEncode := by
  intro i hwf
  cases i with
  | nop ie | crcInit ie | build ie | parse ie | check ie | xchg ie =>
    exact (decode_ctrlWrite ie _).trans (by simp [decodeCtrl])
  | reserved67 ie bit0 => cases bit0 <;> exact (decode_ctrlWrite ie _).trans (by simp [decodeCtrl])
  | reserved8F ie low =>
    revert ie low
    decide
  | crcUpdate data =>
    exact congrArg (Except.ok <| Instr.crcUpdate ·) (lane_setWidth data)
  | listDir p | download p | remove p => exact decode_encodeFrame _ p
  | upload p flag chunk => exact (decode_encodeFrame _ _).trans (decodeWire_upload flag chunk (upload_path_of_wf hwf))

/-- Settles O3: closed words, decoded. -/
theorem specWordsDecode : Obligations.SpecWordsDecode := by
  refine ⟨?_, ?_, ?_, ?_, ?_, ?_, ?_⟩ <;> decide

end Sys2Proof.Proofs
end

section
/-!
Laws of the inputs: nothing that the agents do reads the events still to come, so that every operation commutes with
replacing them.
-/
namespace Sys2Proof.Machine
open Sys2Proof.Claims

/-- The operation neither reads nor changes the events still to come. -/
def IgnoresInputs (f : State → State) : Prop := ∀ es s, f (s.withInputs es) = (f s).withInputs es

/-- The same of an operation that may stop. -/
def OutcomeIgnoresInputs (f : State → Host.Outcome State Fault Refusal) : Prop :=
  ∀ es s, f (s.withInputs es) = andThen (f s) fun t => .next (t.withInputs es)

section
variable {f g : State → State} {o : State → Host.Outcome State Fault Refusal}

theorem ignoresInputs_ite {c : State → Prop} [∀ s, Decidable (c s)] (hc : ∀ es s, c (s.withInputs es) ↔ c s)
    (hf : IgnoresInputs f) (hg : IgnoresInputs g) : IgnoresInputs fun s => if c s then f s else g s := by
  intro es s
  by_cases h : c s
  · simp only [if_pos h, if_pos ((hc es s).2 h), hf es s]
  · simp only [if_neg h, if_neg (mt (hc es s).1 h), hg es s]

theorem IgnoresInputs.comp (hg : IgnoresInputs g) (hf : IgnoresInputs f) : IgnoresInputs fun s => g (f s) :=
  fun es s => (congrArg g (hf es s)).trans (hg es (f s))

theorem IgnoresInputs.next (hf : IgnoresInputs f) : OutcomeIgnoresInputs fun s => .next (f s) :=
  fun es s => congrArg Host.Outcome.next (hf es s)

theorem OutcomeIgnoresInputs.andThen {k : State → Host.Outcome State Fault Refusal} (ho : OutcomeIgnoresInputs o)
    (hk : OutcomeIgnoresInputs k) : OutcomeIgnoresInputs fun s => Machine.andThen (o s) k := by
  intro es s
  simp only [ho es s]
  cases o s with
  | next t => exact hk es t
  | fault r => rfl
  | refused r => rfl

end

/-! ### The host's procedures -/

theorem startUpload_ignoresInputs (src : Option Bytes) (p : Bytes) : IgnoresInputs (startUpload src p) := by
  refine ignoresInputs_ite (fun _ _ => Iff.rfl) (fun _ _ => rfl) ?_
  match src with
  | none | some [] | some (_ :: _) => exact fun _ _ => rfl

theorem startOp_ignoresInputs (op : HostOp) : IgnoresInputs (startOp op) := by
  intro es s
  cases op with
  | listDir path =>
    match path with
    | none | some [] => rfl
    | some (b :: rest) =>
      simp only [startOp]
      cases normalizePath (b :: rest) <;> rfl
  | download path dest | remove path =>
    simp only [startOp]
    cases normalizePath path <;> rfl
  | upload src path =>
    simp only [startOp]
    cases normalizePath path with
    | error e => rfl
    | ok p => exact startUpload_ignoresInputs src p es s.forgetResult
  | send kind op payload => rfl
  | boot uartDiv engTimeout ie => rfl

theorem request_ignoresInputs (op : HostOp) : IgnoresInputs (request op) :=
  ignoresInputs_ite (fun _ _ => Iff.rfl) (startOp_ignoresInputs op) fun _ _ => rfl

theorem chunkAcknowledged_ignoresInputs (u : Session) : IgnoresInputs (chunkAcknowledged u) :=
  ignoresInputs_ite (fun _ _ => Iff.rfl) (fun _ _ => rfl) fun _ _ => rfl

theorem exchangeOk_ignoresInputs (kind : TaskKind) (body : Bytes) : IgnoresInputs (exchangeOk kind body) := by
  match kind with
  | .upload u => exact ignoresInputs_ite (fun _ _ => Iff.rfl) (chunkAcknowledged_ignoresInputs u) fun _ _ => rfl
  | .listDir | .download .display | .download (.file true) | .download (.file false) | .remove | .raw | .boot =>
    exact fun _ _ => rfl

theorem exchangeEnded_ignoresInputs (kind : TaskKind) (r : Exchanged) : IgnoresInputs (exchangeEnded kind r) := by
  cases r with
  | ok body => exact exchangeOk_ignoresInputs kind body
  | error e => cases kind <;> exact fun _ _ => rfl

/-! ### The bus -/

theorem csrRead_ignoresInputs (off : Nat) : IgnoresInputs (csrRead off) :=
  ignoresInputs_ite (fun _ _ => Iff.rfl) (fun _ _ => rfl) <|
    ignoresInputs_ite (fun _ _ => Iff.rfl) (fun _ _ => rfl) fun _ _ => rfl

theorem bufRead_ignoresInputs (a n i size : Nat) : IgnoresInputs (bufRead a n i size) :=
  ignoresInputs_ite (fun _ _ => Iff.rfl) (fun _ _ => rfl) <|
    ignoresInputs_ite (fun _ _ => Iff.rfl) (fun _ _ => rfl) fun _ _ => rfl

theorem memRead_ignoresInputs (a n : Nat) : IgnoresInputs (memRead a n) := by
  refine ignoresInputs_ite (fun _ _ => Iff.rfl) (fun _ _ => rfl) ?_
  cases windowOf a with
  | csr => exact ignoresInputs_ite (fun _ _ => Iff.rfl) (fun _ _ => rfl) (csrRead_ignoresInputs a)
  | tx i => exact fun es s => bufRead_ignoresInputs a n i s.cfg.txbufSize es s
  | rx i => exact fun es s => bufRead_ignoresInputs a n i s.cfg.rxbufSize es s
  | outside => exact fun _ _ => rfl

theorem unlessBusy_ignoresInputs (off : Nat) (b : Block → Block) : IgnoresInputs fun s => unlessBusy off (b s.blk) s :=
  ignoresInputs_ite (fun _ _ => Iff.rfl) (fun _ _ => rfl) fun _ _ => rfl

/-- A write that a block without the engine ignores (R50). -/
theorem onlyWithEngine_ignoresInputs {f : State → State} (hf : IgnoresInputs f) :
    IgnoresInputs fun s => if s.cfg.enginePresent then f s else s.respond .ok :=
  ignoresInputs_ite (fun _ _ => Iff.rfl) hf fun _ _ => rfl

theorem csrWrite_ignoresInputs (off : Nat) (v : Word) : IgnoresInputs (csrWrite off v) := by
  intro es s
  unfold csrWrite
  split
  · rfl
  · exact unlessBusy_ignoresInputs _ (fun b => { b with crc := v.extractLsb' 0 16 }) es s
  · exact unlessBusy_ignoresInputs _ (fun b => { b with txLen := v }) es s
  · exact unlessBusy_ignoresInputs _ (fun b => { b with rxLen := v }) es s
  · exact onlyWithEngine_ignoresInputs (unlessBusy_ignoresInputs _ fun b => { b with engTimeout := warl v }) es s
  · exact onlyWithEngine_ignoresInputs (unlessBusy_ignoresInputs _ fun b => { b with uartDiv := warl v }) es s
  · rfl

theorem bufWrite_ignoresInputs (a n i size : Nat) (v : Word) : IgnoresInputs (bufWrite a n i size v) :=
  ignoresInputs_ite (fun _ _ => Iff.rfl) (fun _ _ => rfl) <|
    ignoresInputs_ite (fun _ _ => Iff.rfl) (fun _ _ => rfl) fun _ _ => rfl

theorem memWrite_ignoresInputs (a n : Nat) (v : Word) : IgnoresInputs (memWrite a n v) := by
  refine ignoresInputs_ite (fun _ _ => Iff.rfl) (fun _ _ => rfl) ?_
  cases windowOf a with
  | csr => exact ignoresInputs_ite (fun _ _ => Iff.rfl) (fun _ _ => rfl) (csrWrite_ignoresInputs a v)
  | tx i => exact fun es s => bufWrite_ignoresInputs a n i s.cfg.txbufSize v es s
  | rx i => exact fun es s => bufWrite_ignoresInputs a n i s.cfg.rxbufSize v es s
  | outside => exact fun _ _ => rfl

theorem exec_ignoresInputs (i : Instr) : OutcomeIgnoresInputs (exec i) := by
  cases i with
  | crcUpdate data =>
    exact (ignoresInputs_ite (fun _ _ => Iff.rfl) (fun _ _ => rfl) fun _ _ => rfl).next
  | listDir path | download path | upload path flag chunk | remove path => exact (request_ignoresInputs _).next
  | nop | crcInit | build | parse | check | xchg | reserved67 | reserved8F => exact fun _ _ => rfl

theorem busAccess_ignoresInputs (a : Access) : OutcomeIgnoresInputs (busAccess a) := by
  intro es s
  unfold busAccess
  cases decodeAccess a with
  | ok i => exact exec_ignoresInputs i es s
  | error e =>
    obtain ⟨dir, size, off, v⟩ := a
    cases dir with
    | R => exact (memRead_ignoresInputs off size).next es s
    | W => exact (memWrite_ignoresInputs off size v).next es s

theorem platformAccess_ignoresInputs (a : Access) : OutcomeIgnoresInputs (platformAccess a) := by
  intro es s
  have hcfg : (s.withInputs es).cfg = s.cfg := rfl
  unfold platformAccess
  rw [hcfg]
  cases blockOffset s.cfg a.off with
  | some off => exact busAccess_ignoresInputs _ es s
  | none => rfl

theorem runPacket_ignoresInputs (p : Packet) : OutcomeIgnoresInputs (runPacket p) := by
  intro es s
  cases p with
  | bus a => exact busAccess_ignoresInputs a es s
  | frame bytes =>
    simp only [runPacket]
    cases decodeFrame bytes with
    | ok i => exact exec_ignoresInputs i es s
    | error e =>
      cases frameParts bytes with
      | none => rfl
      | some parts => exact (request_ignoresInputs (.send .raw parts.1 parts.2)).next es s

/-! ### The agents -/

theorem readThen_ignoresInputs (kind : TaskKind) (a : Access) {k : Word → State → State}
    (hk : ∀ v, IgnoresInputs (k v)) : OutcomeIgnoresInputs (readThen kind a k) := by
  refine (busAccess_ignoresInputs a).andThen fun es s => ?_
  have hresponse : (s.withInputs es).host.response = s.host.response := rfl
  rw [hresponse]
  cases s.host.response.value with
  | ok v => exact (hk v).next es s
  | error addr => exact (exchangeEnded_ignoresInputs kind _).next es s

theorem bodyRead_ignoresInputs (kind : TaskKind) (de : Bool) (body : Bytes) : IgnoresInputs (bodyRead kind de body) :=
  exchangeEnded_ignoresInputs kind _

theorem statusRead_ignoresInputs (kind : TaskKind) (v : Word) : IgnoresInputs (statusRead kind v) :=
  ignoresInputs_ite (fun _ _ => Iff.rfl) (fun _ _ => rfl) <|
    ignoresInputs_ite (fun _ _ => Iff.rfl) (fun _ _ => rfl) (exchangeEnded_ignoresInputs kind _)

theorem taskTurn_ignoresInputs (t : Task) : OutcomeIgnoresInputs (taskTurn t) := by
  obtain ⟨kind, phase⟩ := t
  cases phase with
  | issue todo next =>
    cases todo with
    | nil => exact fun _ _ => rfl
    | cons a rest => exact (busAccess_ignoresInputs a).andThen fun _ _ => rfl
  | pollBusy =>
    exact readThen_ignoresInputs kind _ fun v =>
      ignoresInputs_ite (fun _ _ => Iff.rfl) (fun _ _ => rfl) fun _ _ => rfl
  | awaitIrq => exact (ignoresInputs_ite (fun _ _ => Iff.rfl) (fun _ _ => rfl) fun _ _ => rfl).next
  | readStatus => exact readThen_ignoresInputs kind _ (statusRead_ignoresInputs kind)
  | readBodyLen de =>
    exact readThen_ignoresInputs kind _ fun v =>
      ignoresInputs_ite (fun _ _ => Iff.rfl) (bodyRead_ignoresInputs kind de []) fun _ _ => rfl
  | readBody de left got =>
    exact readThen_ignoresInputs kind _ fun v =>
      ignoresInputs_ite (fun _ _ => Iff.rfl) (bodyRead_ignoresInputs kind de _) fun _ _ => rfl
  | checkBuild =>
    exact readThen_ignoresInputs kind _ fun v =>
      ignoresInputs_ite (fun _ _ => Iff.rfl) (fun _ _ => rfl) (exchangeEnded_ignoresInputs kind _)
  | readFrameLen =>
    exact readThen_ignoresInputs kind _ fun v =>
      ignoresInputs_ite (fun _ _ => Iff.rfl) (fun _ _ => rfl) fun _ _ => rfl
  | readFrame len index => exact readThen_ignoresInputs kind _ fun v _ _ => rfl
  | collect got => exact fun _ _ => rfl
  | finished => exact fun _ _ => rfl

theorem hostTurn_ignoresInputs : OutcomeIgnoresInputs hostTurn := by
  intro es s
  have hhost : (s.withInputs es).host = s.host := rfl
  unfold hostTurn
  rw [hhost]
  match s.host.task, s.host.waiting with
  | some t, _ => exact taskTurn_ignoresInputs t es s
  | none, op :: rest => exact (startOp_ignoresInputs op).next es { s with host := { s.host with waiting := rest } }
  | none, [] => rfl

theorem receive_ignoresInputs (b : Byte) : IgnoresInputs (receive b) :=
  ignoresInputs_ite (fun _ _ => Iff.rfl) (fun _ _ => rfl) fun _ _ => rfl

theorem lineByte_ignoresInputs (b : Byte) : IgnoresInputs (lineByte b) := by
  intro es s
  have hhost : (s.withInputs es).host = s.host := rfl
  unfold lineByte
  rw [hhost]
  cases s.host.collecting with
  | some collected => rfl
  | none => exact receive_ignoresInputs b es s

theorem lineIdle_ignoresInputs : IgnoresInputs lineIdle :=
  ignoresInputs_ite (fun _ _ => Iff.rfl) (fun _ _ => rfl) fun _ _ => rfl

theorem lineQuiet_ignoresInputs : IgnoresInputs lineQuiet := by
  intro es s
  have hhost : (s.withInputs es).host = s.host := rfl
  unfold lineQuiet
  rw [hhost]
  match s.host.collecting with
  | some (kind, []) => exact exchangeEnded_ignoresInputs kind _ es s
  | some (_, _ :: _) => rfl
  | none => exact lineIdle_ignoresInputs es s

theorem lineChar_ignoresInputs (c : BitVec 10) : IgnoresInputs (lineChar c) := by
  intro es s
  unfold lineChar
  cases uartByte c with
  | some b => exact lineByte_ignoresInputs b es s
  | none => rfl

theorem engineTx_ignoresInputs : IgnoresInputs engineTx :=
  ignoresInputs_ite (fun _ _ => Iff.rfl) (fun _ _ => rfl) fun _ _ => rfl

theorem runEvent_ignoresInputs (e : Event) : OutcomeIgnoresInputs (runEvent e) := by
  cases e with
  | transaction p => exact runPacket_ignoresInputs p
  | platformAccess a => exact platformAccess_ignoresInputs a
  | request op => exact (request_ignoresInputs op).next
  | hostTurn => exact hostTurn_ignoresInputs
  | hostStop => exact fun _ _ => rfl
  | engineTx => exact engineTx_ignoresInputs.next
  | lineByte b => exact (lineByte_ignoresInputs b).next
  | lineChar c => exact (lineChar_ignoresInputs c).next
  | lineIdle => exact lineQuiet_ignoresInputs.next
  | reset => exact fun _ _ => rfl

/-! ### A step takes the first input (R15, R326) -/

theorem step_of_inputs {s : State} {e : Event} {rest : List Event} (h : s.env.inputs = e :: rest) :
    step s = runEvent e (s.withInputs rest) := by
  simp only [step, State.nextEvent, State.advance, h]
  rfl

/-- The step that takes `e` leaves the other inputs, and ends where `e` ends. -/
theorem step_withInputs_cons {e : Event} {s t : State} (h : runEvent e s = .next t) (rest : List Event) :
    step (s.withInputs (e :: rest)) = .next (t.withInputs rest) := by
  rw [step_of_inputs rfl]
  exact (runEvent_ignoresInputs e rest s).trans (by rw [h]; rfl)

theorem play_cons_next {e : Event} {es : List Event} {s u : State} (h : play (e :: es) s = .next u) :
    ∃ t, runEvent e s = .next t ∧ play es t = .next u := by
  rw [play] at h
  cases he : runEvent e s with
  | next t => exact ⟨t, rfl, by rwa [he] at h⟩
  | fault r => rw [he] at h; cases h
  | refused r => rw [he] at h; cases h

end Sys2Proof.Machine
end

section
/-!
The steps of a run: `00_scope.md` section 5 and `60_exceptions.md` section 4.
-/
namespace Sys2Proof.Proofs
open Sys2Proof.Machine

/-- Settles O4: the step takes the packet from the inputs and runs what it decodes to. -/
theorem stepRunsDecodedInstruction : Obligations.StepRunsDecodedInstruction := by
  intro s p rest i hinputs hdecode
  exact (step_of_inputs hinputs).trans (runPacket_decode hdecode _)

/-- Settles O5, by induction on the events: each step takes one and ends where it ends, whatever inputs are left. -/
theorem stepsPlayInputs : Obligations.StepsPlayInputs := by
  intro es rest
  induction es with
  | nil =>
    intro s t h
    cases h
    rfl
  | cons e es ih =>
    intro s u h
    obtain ⟨t, he, hes⟩ := play_cons_next h
    show andThen (step (s.withInputs (e :: (es ++ rest)))) (run es.length) = _
    rw [step_withInputs_cons he]
    exact ih t u hes

end Sys2Proof.Proofs
end

section
/-!
Laws of soundness: each move of a step keeps what holds of a sound block.
-/
namespace Sys2Proof.Machine
open Sys2Proof.Claims

/-! ### The buffers' list (R51, R81) -/

theorem memInside_put {c : Config} {m : Memory} {a : Nat} (h : ∀ x ∈ m, bufferAddress c x.1) (ha : bufferAddress c a)
    (v : Byte) : ∀ x ∈ Memory.put m a v, bufferAddress c x.1 := by
  intro x hx
  obtain rfl | hx := Memory.mem_put hx
  · exact ha
  · exact h x hx

theorem memInside_store {c : Config} {b : Block} {a n : Nat} (h : ∀ x ∈ b.mem, bufferAddress c x.1)
    (hn : n = 1 ∨ n = 4) (ha : ∀ k < n, bufferAddress c (a + k)) (v : Word) :
    ∀ x ∈ (b.store a n v).mem, bufferAddress c x.1 := by
  obtain rfl | rfl := hn
  · exact memInside_put h (ha 0 (by omega)) _
  · exact memInside_put (memInside_put (memInside_put (memInside_put h (ha 0 (by omega)) _) (ha 1 (by omega)) _)
      (ha 2 (by omega)) _) (ha 3 (by omega)) _

theorem warl_ne_zero (v : Word) : warl v ≠ 0 := by
  unfold warl
  split
  · decide
  · assumption

section Inv
variable {c : Config} {b : Block}

/-- A busy block has BUSY's other face: capture is on, and DONE is 0; an idle one captures nothing. -/
theorem Block.Inv.not_sending (h : b.Inv c) (hb : b.busy = false) :
    b.engState ≠ .frameSent ∧ b.engState ≠ .awaitingResponse :=
  not_or.1 fun hs => by simp [h.busyState.2 hs] at hb

/-- What soundness does not speak of: IE, CMD_OVERRUN, ERR, CRC, RX_LEN and the fields of a response but its markers. Of
DONE it only asks that it is 0 while BUSY = 1. -/
theorem Block.Inv.withFlags (h : b.Inv c) (ie done cmdOverrun : Bool) (err : ErrCode) (rxStatus rxReserved : Byte)
    (crc : Half) (rxLen rxBodyLen : Word) (rxTrailer : Half) (hdone : b.busy = true → done = false) :
    Block.Inv c { b with
      ie := ie, done := done, cmdOverrun := cmdOverrun, err := err, rxStatus := rxStatus, rxReserved := rxReserved
      crc := crc, rxLen := rxLen, rxBodyLen := rxBodyLen, rxTrailer := rxTrailer } :=
  { h with busyNotDone := hdone }

/-- An accepted command finds a sound block. -/
theorem Block.Inv.accepted (h : b.Inv c) (ie : Bool) : Block.Inv c { b with ie := ie, done := false } :=
  h.withFlags ie false _ _ _ _ _ _ _ _ fun _ => rfl

/-- On an idle block a command completes (R300). -/
theorem Block.Inv.complete (h : b.Inv c) (hb : b.busy = false) (code : ErrCode) : (b.complete code).Inv c :=
  h.withFlags _ true _ code _ _ _ _ _ _ fun hbusy => absurd hbusy (by simp [hb])

/-- The extraction registers hold the fields of a response whose markers were checked (R48). -/
theorem Block.Inv.extract (h : b.Inv c) (hh : b.headerOk = true) (hf : b.footerOk b.rxLen.toNat = true) :
    b.extract.Inv c :=
  { h with markers := .inr (extract_markers hh hf) }

theorem Block.Inv.clearExtraction (h : b.Inv c) : b.clearExtraction.Inv c :=
  { h with markers := .inl ⟨rfl, rfl⟩ }

theorem Block.Inv.parseFields (h : b.Inv c) : (parseFields c b).Inv c := by
  unfold Machine.parseFields
  split
  next hext =>
    obtain ⟨_, hh, hf⟩ := extracts_parseCode hext
    exact h.extract hh hf
  · exact h.clearExtraction

theorem Block.Inv.parse (h : b.Inv c) (hb : b.busy = false) : (parse c b).Inv c :=
  h.parseFields.complete ((Block.feeds_parse c b).busy.trans hb) _

theorem Block.Inv.check (h : b.Inv c) (hb : b.busy = false) : (check c b).Inv c := by
  unfold Machine.check
  simp only
  split
  · exact h.complete hb _
  · split
    · exact h.complete hb _
    · exact (h.withFlags _ _ _ _ _ _ b.checkComputed _ _ b.checkReceived h.busyNotDone).complete hb _

/-- While no exchange runs, TX_LEN and TX_FRAME_LEN are free (R43, R44). -/
theorem Block.Inv.withLengths (h : b.Inv c) (hb : b.busy = false) (txLen txFrameLen : Word) :
    Block.Inv c { b with txLen := txLen, txFrameLen := txFrameLen } :=
  have hs := h.not_sending hb
  { h with
    sendingIndex := fun hsend => absurd hsend hs.1
    sentIndex := fun hsent => absurd hsent hs.2
    busyFrame := fun hbusy => absurd hbusy (by simp [hb]) }

/-- BUILD's two bytes lie in TXBUF (R170). -/
theorem Block.Inv.appendChecksum (h : b.Inv c) (hb : b.busy = false) (hlen : b.txLen.toNat + 2 ≤ c.txbufSize) :
    b.appendChecksum.Inv c :=
  have hs := h.not_sending hb
  { h with
    memRising := Memory.wf_put (Memory.wf_put h.memRising _ _) _ _
    memInside := memInside_put (memInside_put h.memInside (.inl ⟨by omega, by omega⟩) _) (.inl ⟨by omega, by omega⟩) _
    sendingIndex := fun hsend => absurd hsend hs.1
    sentIndex := fun hsent => absurd hsent hs.2
    busyFrame := fun hbusy => absurd hbusy (by simp [hb]) }

theorem Block.Inv.build (h : b.Inv c) (hb : b.busy = false) : (build c b).Inv c := by
  unfold Machine.build
  split
  next hlen => exact (h.appendChecksum hb (txLengthOk_iff.1 hlen).2).complete hb _
  · exact (h.withLengths hb b.txLen 0).complete hb _

/-- An exchange starts with the frame BUILD made (R221). -/
theorem Block.Inv.startExchange (h : b.Inv c) (he : c.enginePresent = true) (hdone : b.done = false)
    (hframe : b.txFrameLen.toNat = b.txLen.toNat + 2 ∧ 0 < b.txLen.toNat ∧ b.txLen.toNat + 2 ≤ c.txbufSize) :
    b.startExchange.Inv c :=
  { h with
    busyEngine := fun _ => he
    busyNotDone := fun _ => hdone
    capturingBusy := rfl
    busyState := iff_of_true rfl (.inl rfl)
    sendingIndex := fun _ => by
      show 0 < b.txFrameLen.toNat
      omega
    sentIndex := nofun
    busyFrame := fun _ => hframe
    storedFits := Nat.zero_le _
    overflowFull := nofun
    timerCapturing := nofun
    timerAwaiting := nofun
    noEngine := fun hno => by simp [he] at hno }

/-- An idle engine may rest in any of the states that no exchange is in (R236). -/
theorem Block.Inv.withEngState (h : b.Inv c) (hb : b.busy = false) (he : c.enginePresent = true) {st : EngState}
    (hst : st ≠ .frameSent ∧ st ≠ .awaitingResponse) : Block.Inv c { b with engState := st } :=
  { h with
    busyState := iff_of_false (by simp [hb]) (not_or.2 hst)
    sendingIndex := fun hsend => absurd hsend hst.1
    sentIndex := fun hsent => absurd hsent hst.2
    timerAwaiting := fun hawait => absurd hawait hst.2
    noEngine := fun hno => by simp [he] at hno }

theorem Block.Inv.xchg (hc : c.Legal) (h : b.Inv c) (hb : b.busy = false) (hdone : b.done = false) :
    (xchg c b).Inv c := by
  by_cases he : c.enginePresent = true
  · rw [Machine.xchg, if_neg (by simp [he])]
    split
    next hlen =>
      obtain ⟨hpos, hfit⟩ := txLengthOk_iff.1 hlen
      exact (h.appendChecksum hb hfit).startExchange he hdone
        ⟨appendChecksum_txFrameLen_toNat hc hfit, Nat.pos_of_ne_zero hpos, hfit⟩
    · exact ((h.withLengths hb b.txLen 0).withEngState hb he (st := .failed) ⟨nofun, nofun⟩).complete hb _
  · rw [xchg_noEngine he]
    exact h.complete hb _

/-- The transmit step moves the index, and after the last byte the engine awaits the response (R222). -/
theorem Block.Inv.transmit (h : b.Inv c) (hcan : b.canTransmit = true) : b.transmit.Inv c := by
  obtain ⟨hsend, hmore⟩ := canTransmit_iff.1 hcan
  have hbusy : b.busy = true := h.busyState.2 (.inl hsend)
  have hcap : b.capturing = true := h.capturingBusy.trans hbusy
  by_cases hlast : b.txi + 1 = b.txFrameLen.toNat
  · have hstate : b.transmit.engState = .awaitingResponse := Block.transmit_engState_last hlast
    exact { h with
      lineHigh := uartChar_stop _
      busyState := iff_of_true hbusy (.inr hstate)
      sendingIndex := fun hs => by simp [hstate] at hs
      sentIndex := fun _ => hlast
      timerCapturing := fun hno => absurd hcap (Bool.eq_false_iff.1 hno)
      timerAwaiting := fun _ => if_pos hlast
      noEngine := fun hno => absurd (h.busyEngine hbusy) (by simp [hno]) }
  · have hstate : b.transmit.engState = .frameSent := (Block.transmit_engState_more hlast).trans hsend
    exact { h with
      lineHigh := uartChar_stop _
      busyState := iff_of_true hbusy (.inl hstate)
      sendingIndex := fun _ => by
        show b.txi + 1 < b.txFrameLen.toNat
        omega
      sentIndex := fun hs => by simp [hstate] at hs
      timerCapturing := fun hno => absurd hcap (Bool.eq_false_iff.1 hno)
      timerAwaiting := fun hs => by simp [hstate] at hs
      noEngine := fun hno => absurd (h.busyEngine hbusy) (by simp [hno]) }

/-- A byte is stored inside RXBUF, or dropped when that is full (R227). -/
theorem Block.Inv.receive (h : b.Inv c) (hcap : b.capturing = true) (byte : Byte) : (b.receive c byte).Inv c := by
  by_cases hroom : b.rxn < c.rxbufSize
  · rw [Block.receive_of_room hroom]
    exact { h with
      memRising := Memory.wf_put h.memRising _ _
      memInside := memInside_put h.memInside (.inr ⟨by omega, by omega⟩) _
      storedFits := hroom
      overflowFull := fun hovf => absurd (h.overflowFull hovf) (by omega)
      timerCapturing := fun hno => absurd hcap (Bool.eq_false_iff.1 hno)
      timerAwaiting := fun _ => rfl }
  · rw [Block.receive_of_full hroom]
    exact { h with
      overflowFull := fun _ => le_antisymm h.storedFits (not_lt.1 hroom)
      timerCapturing := fun hno => absurd hcap (Bool.eq_false_iff.1 hno)
      timerAwaiting := fun _ => rfl }

/-- An exchange ends with capture stopped and BUSY cleared, in one of the states that no exchange is in (R229, R230). -/
theorem Block.Inv.endExchange (h : b.Inv c) (hbusy : b.busy = true) (code : ErrCode) {st : EngState}
    (hst : st ≠ .frameSent ∧ st ≠ .awaitingResponse) :
    Block.Inv c (Block.complete code { b.stopCapture with engState := st, busy := false }) :=
  { h with
    busyEngine := nofun
    busyNotDone := nofun
    capturingBusy := rfl
    busyState := iff_of_false nofun (not_or.2 hst)
    sendingIndex := fun hsend => absurd hsend hst.1
    sentIndex := fun hsent => absurd hsent hst.2
    busyFrame := nofun
    timerCapturing := fun _ => rfl
    timerAwaiting := fun hawait => absurd hawait hst.2
    noEngine := fun hno => absurd (h.busyEngine hbusy) (by simp [hno]) }

/-- An exchange extracts fields only where PARSE does (R230). -/
theorem extracts_exchangeCode (h : (exchangeCode c b).extracts = true) : (parseCode c b).extracts = true := by
  unfold exchangeCode at h
  split at h
  · cases h
  · split at h
    · cases h
    · exact h

theorem Block.Inv.finishExchange (h : b.Inv c) (hcan : b.canIdle = true) : (finishExchange c b).Inv c := by
  have hbusy : b.busy = true := h.busyState.2 (.inr (by simpa using (Bool.and_eq_true_iff.1 hcan).2))
  have hst : (if exchangeCode c b.stopCapture = .none then EngState.decoded else .failed) ≠ .frameSent ∧
      (if exchangeCode c b.stopCapture = .none then EngState.decoded else .failed) ≠ .awaitingResponse := by
    split <;> exact ⟨nofun, nofun⟩
  have hend := h.endExchange hbusy (exchangeCode c b.stopCapture) hst
  unfold Machine.finishExchange
  simp only
  split
  next hext =>
    obtain ⟨_, hh, hf⟩ := extracts_parseCode (extracts_exchangeCode hext)
    exact hend.extract hh hf
  · exact hend.clearExtraction

/-- UART_DIV starts at 1 or more (R50). -/
theorem resetDivisor_toNat (c : Config) :
    (resetDivisor c).toNat = min 0xFFFFFFFF (max 1 ((2 * c.fClkHz + 115200) / 230400)) := by
  rw [resetDivisor, BitVec.toNat_ofNat]
  omega

theorem Block.inv_reset (c : Config) (epoch : Nat) : (Block.reset c epoch).Inv c where
  memRising := List.Pairwise.nil
  memInside := nofun
  timeoutPositive := show (11520 : Word) ≠ 0 by decide
  divisorPositive h := by
    have := (resetDivisor_toNat c).symm.trans (congrArg BitVec.toNat h)
    rw [show (0 : Word).toNat = 0 from rfl] at this
    omega
  lineHigh := rfl
  busyEngine := nofun
  busyNotDone := nofun
  capturingBusy := rfl
  busyState := iff_of_false nofun (not_or.2 ⟨nofun, nofun⟩)
  sendingIndex := nofun
  sentIndex := nofun
  busyFrame := nofun
  storedFits := Nat.zero_le _
  overflowFull := nofun
  timerCapturing _ := rfl
  timerAwaiting := nofun
  markers := .inl ⟨rfl, rfl⟩
  noEngine _ := rfl

/-- Every move keeps a sound block sound. -/
theorem Block.Move.inv {b' : Block} (hm : Block.Move c b b') (hc : c.Legal) (h : b.Inv c) : b'.Inv c := by
  cases hm with
  | stay => exact h
  | enable ie => exact h.withFlags ie _ _ _ _ _ _ _ _ _ h.busyNotDone
  | overrun ie => exact h.withFlags ie _ true _ _ _ _ _ _ _ h.busyNotDone
  | crcInit ie hb => exact ((h.accepted ie).withFlags _ false _ _ _ _ crcInitValue _ _ _ fun _ => rfl).complete hb .none
  | build ie hb => exact (h.accepted ie).build hb
  | parse ie hb => exact (h.accepted ie).parse hb
  | check ie hb => exact (h.accepted ie).check hb
  | xchg ie hb => exact (h.accepted ie).xchg hc hb rfl
  | illegal ie hb => exact (h.accepted ie).complete hb _
  | crcUpdate data => exact h.withFlags _ _ _ _ _ _ _ _ _ _ h.busyNotDone
  | status v =>
    exact h.withFlags _ _ _ _ _ _ _ _ _ _ fun hbusy => by simp [h.busyNotDone hbusy]
  | crc v => exact h.withFlags _ _ _ _ _ _ (v.extractLsb' 0 16) _ _ _ h.busyNotDone
  | txLen v hb => exact h.withLengths hb v b.txFrameLen
  | rxLen v => exact h.withFlags _ _ _ _ _ _ _ v _ _ h.busyNotDone
  | timeout v => exact { h with timeoutPositive := warl_ne_zero v }
  | divisor v => exact { h with divisorPositive := warl_ne_zero v }
  | store a n v hb hn ha =>
    rw [b.store_frame]
    exact { h with memRising := Block.mem_store_wf h.memRising a n v, memInside := memInside_store h.memInside hn ha v }
  | transmit hcan => exact h.transmit hcan
  | receive byte hcap => exact h.receive hcap byte
  | complete hcan => exact h.finishExchange hcan
  | reset => exact Block.inv_reset c _

end Inv

end Sys2Proof.Machine
end

section
/-!
Sound states: reset and every step (`10_state.md`, `43_engine.md`, `70_reset_and_hazards.md` section 1).
-/
namespace Sys2Proof.Proofs
open Sys2Proof.Machine

/-- Settles O45, by the block's values after reset. -/
theorem resetIsSound : Obligations.ResetIsSound := fun c hc => ⟨hc, Block.inv_reset c 0⟩

/-- Settles O46: a step makes one of the moves, each of which keeps soundness, and no step changes the parameters. -/
theorem stepKeepsSoundness : Obligations.StepKeepsSoundness := by
  intro s t ⟨hc, hinv⟩ hstep
  obtain ⟨hcfg, hmove⟩ := step_move hstep
  rw [State.Inv, hcfg]
  exact ⟨⟨hc, hmove.inv hc hinv⟩, rfl⟩

end Sys2Proof.Proofs
end

section
/-!
Laws of the running exchange: which moves change BUSY or ENG_STATE, what a move can do to a busy block, and when a step
does not answer.
-/
namespace Sys2Proof.Machine
open Sys2Proof.Claims

/-! ### Completion, field by field (R229, R230) -/

section Finish
variable (c : Config) (b : Block)

@[simp] theorem finishExchange_busy : (finishExchange c b).busy = false := rfl

@[simp] theorem finishExchange_done : (finishExchange c b).done = true := rfl

@[simp] theorem finishExchange_err : (finishExchange c b).err = exchangeCode c b.stopCapture := rfl

@[simp] theorem finishExchange_engState :
    (finishExchange c b).engState = if exchangeCode c b.stopCapture = .none then .decoded else .failed := rfl

@[simp] theorem finishExchange_rxLen : (finishExchange c b).rxLen = BitVec.ofNat 32 b.rxn := by
  unfold finishExchange
  simp only [Block.complete_rxLen]
  split <;> rfl

end Finish

theorem canIdle_iff {b : Block} : b.canIdle = true ↔ b.capturing = true ∧ b.engState = .awaitingResponse := by
  simp [Block.canIdle]

/-! ### BUSY and ENG_STATE (R36, R236) -/

/-- What concerns a running exchange as a whole: BUSY and ENG_STATE. -/
def Block.KeepsExchange (b b' : Block) : Prop := b'.busy = b.busy ∧ b'.engState = b.engState

theorem Block.keepsExchange_build (c : Config) (b : Block) : b.KeepsExchange (build c b) := by
  unfold build
  split <;> exact ⟨rfl, rfl⟩

theorem Block.keepsExchange_parse (c : Config) (b : Block) : b.KeepsExchange (parse c b) := by
  unfold parse parseFields
  split <;> exact ⟨rfl, rfl⟩

theorem Block.keepsExchange_check (c : Config) (b : Block) : b.KeepsExchange (check c b) := by
  unfold check
  simp only
  split
  · exact ⟨rfl, rfl⟩
  · split <;> exact ⟨rfl, rfl⟩

theorem Block.keepsExchange_receive (c : Config) (byte : Byte) (b : Block) : b.KeepsExchange (b.receive c byte) := by
  unfold Block.receive
  split <;> exact ⟨rfl, rfl⟩

/-- The moves that change BUSY or ENG_STATE: an XCHG whose BUILD fails, one whose BUILD succeeds, the last character, the
idle step, and reset. -/
inductive Block.ExchangeMove (c : Config) (b : Block) : Block → Prop where
  | rejected (b' : Block) : b.busy = false → b'.busy = false → b'.engState = .failed → b'.err = .txLength →
      ExchangeMove c b b'
  | started (ie : Bool) : b.busy = false → c.enginePresent = true → b.txLen.toNat + 2 ≤ c.txbufSize →
      ExchangeMove c b (Block.startExchange (Block.appendChecksum { b with ie := ie, done := false }))
  | sent : b.engState = .frameSent → b.txi + 1 = b.txFrameLen.toNat → ExchangeMove c b b.transmit
  | completed : b.engState = .awaitingResponse → ExchangeMove c b (finishExchange c b)
  | reset : ExchangeMove c b (Block.reset c (b.epoch + 1))

theorem Block.Move.exchange_cases {c : Config} {b b' : Block} (h : Block.Move c b b') :
    b.KeepsExchange b' ∨ Block.ExchangeMove c b b' := by
  cases h with
  | build ie => exact .inl (Block.keepsExchange_build c { b with ie := ie, done := false })
  | parse ie => exact .inl (Block.keepsExchange_parse c { b with ie := ie, done := false })
  | check ie => exact .inl (Block.keepsExchange_check c { b with ie := ie, done := false })
  | xchg ie hb =>
    by_cases he : c.enginePresent = true
    · right
      rw [Machine.xchg, if_neg (by simp [he])]
      split
      next hlen => exact .started ie hb he (txLengthOk_iff.1 hlen).2
      · exact .rejected _ hb hb rfl rfl
    · rw [xchg_noEngine he]
      exact .inl ⟨rfl, rfl⟩
  | store a n v =>
    rw [b.store_frame]
    exact .inl ⟨rfl, rfl⟩
  | transmit hcan =>
    obtain ⟨hsend, hmore⟩ := canTransmit_iff.1 hcan
    by_cases hlast : b.txi + 1 = b.txFrameLen.toNat
    · exact .inr (.sent hsend hlast)
    · exact .inl ⟨rfl, Block.transmit_engState_more hlast⟩
  | receive byte => exact .inl (Block.keepsExchange_receive c byte b)
  | complete hcan => exact .inr (.completed (canIdle_iff.1 hcan).2)
  | reset => exact .inr .reset
  | stay | enable | overrun | crcInit | illegal | crcUpdate | status | crc | txLen | rxLen | timeout | divisor =>
    exact .inl ⟨rfl, rfl⟩

/-! ### What a running exchange works on (R234) -/

/-- The inputs of an exchange: the lengths, CRC, ERR, the timeout, the divisor, and TXBUF. -/
structure Block.KeepsInputs (c : Config) (b b' : Block) : Prop where
  txLen : b'.txLen = b.txLen
  txFrameLen : b'.txFrameLen = b.txFrameLen
  rxLen : b'.rxLen = b.rxLen
  crc : b'.crc = b.crc
  engTimeout : b'.engTimeout = b.engTimeout
  uartDiv : b'.uartDiv = b.uartDiv
  err : b'.err = b.err
  txBytes : ∀ i < c.txbufSize, b'.txByte i = b.txByte i

theorem Block.keepsInputs_receive {c : Config} (hc : c.Legal) (byte : Byte) (b : Block) :
    b.KeepsInputs c (b.receive c byte) := by
  obtain ⟨_, htx, _⟩ := hc
  by_cases hroom : b.rxn < c.rxbufSize
  · have hbytes : ∀ i < c.txbufSize, (b.receive c byte).txByte i = b.txByte i := fun i hi => by
      rw [Block.txByte, Block.byte_receive_of_room hroom, if_neg (by simp only [txBase, rxBase]; omega), Block.txByte]
    rw [Block.receive_of_room hroom] at hbytes ⊢
    exact ⟨rfl, rfl, rfl, rfl, rfl, rfl, rfl, hbytes⟩
  · rw [Block.receive_of_full hroom]
    exact ⟨rfl, rfl, rfl, rfl, rfl, rfl, rfl, fun _ _ => rfl⟩

/-- A busy block stays busy only in moves that leave the inputs of its exchange alone. -/
theorem Block.Move.keepsInputs {c : Config} {b b' : Block} (hc : c.Legal) (h : Block.Move c b b') (hb : b.busy = true)
    (hb' : b'.busy = true) : b.KeepsInputs c b' := by
  cases h with
  | stay | enable | overrun | status | transmit => exact ⟨rfl, rfl, rfl, rfl, rfl, rfl, rfl, fun _ _ => rfl⟩
  | receive byte => exact Block.keepsInputs_receive hc byte b
  | complete | reset => cases hb'
  | crcInit _ hidle | build _ hidle | parse _ hidle | check _ hidle | xchg _ hidle | illegal _ hidle
  | crcUpdate _ hidle | crc _ hidle | txLen _ hidle | rxLen _ hidle | timeout _ hidle | divisor _ hidle
  | store _ _ _ hidle => exact absurd hidle (by simp [hb])

/-! ### Steps that answer (R120) -/

theorem frameParts_none {bytes : Bytes} (h : frameParts bytes = none) : bytes.length < 3 := by
  cases bytes with
  | nil => simp
  | cons op rest =>
    simp only [frameParts, ite_eq_left_iff, reduceCtorEq, imp_false, not_not] at h
    simp only [List.length_cons]
    omega

/-- A packet is taken up, unless it is a frame of fewer than three bytes. -/
theorem runPacket_answers (p : Packet) (s : State) :
    Answers (runPacket p s) (fun _ => True) ∨
      (runPacket p s = .refused .notACommandFrame ∧ ∃ bytes : Bytes, p = .frame bytes ∧ bytes.length < 3) := by
  cases p with
  | bus a =>
    obtain ⟨t, ht, _⟩ := busAccess_move a s
    exact .inl ⟨t, ht, trivial⟩
  | frame bytes =>
    simp only [runPacket]
    cases decodeFrame bytes with
    | ok i =>
      obtain ⟨t, ht, _⟩ := exec_move i s
      exact .inl ⟨t, ht, trivial⟩
    | error e =>
      cases h : frameParts bytes with
      | some parts => exact .inl ⟨_, rfl, trivial⟩
      | none => exact .inr ⟨rfl, bytes, rfl, frameParts_none h⟩

theorem platformAccess_answers (a : Access) (s : State) : Answers (platformAccess a s) fun _ => True := by
  unfold platformAccess
  cases blockOffset s.cfg a.off with
  | some off =>
    obtain ⟨t, ht, _⟩ := busAccess_move { a with off := off } s
    exact ⟨t, ht, trivial⟩
  | none => exact ⟨s, rfl, trivial⟩

theorem runEvent_answers (e : Event) (s : State) :
    Answers (runEvent e s) (fun _ => True) ∨
      (runEvent e s = .refused .notACommandFrame ∧
        ∃ bytes : Bytes, e = .transaction (.frame bytes) ∧ bytes.length < 3) := by
  cases e with
  | transaction p =>
    obtain h | ⟨h, bytes, rfl, hlen⟩ := runPacket_answers p s
    · exact .inl h
    · exact .inr ⟨h, bytes, rfl, hlen⟩
  | platformAccess a => exact .inl (platformAccess_answers a s)
  | hostTurn =>
    obtain ⟨t, ht, _⟩ := hostTurn_move s
    exact .inl ⟨t, ht, trivial⟩
  | request | hostStop | engineTx | lineByte | lineChar | lineIdle | reset => exact .inl ⟨_, rfl, trivial⟩

end Sys2Proof.Machine
end

section
/-!
The family `43_engine.md`: what a step can do to BUSY, to ENG_STATE and to the inputs of an exchange; every step answers.
-/
namespace Sys2Proof.Proofs
open Sys2Proof.Machine

/-- Settles O27, by the five moves that change ENG_STATE. -/
theorem engStateMovesOnlyAsTabled : Obligations.EngStateMovesOnlyAsTabled := by
  intro s t _ hstep hne
  obtain ⟨_, hstate⟩ | hmove := (step_move hstep).2.exchange_cases
  · exact absurd hstate hne
  · generalize t.blk = b' at hmove hne ⊢
    cases hmove with
    | rejected _ hb _ hfailed herr => exact .inl ⟨hfailed, herr, hb⟩
    | started ie hb => exact .inr (.inl ⟨rfl, rfl, hb⟩)
    | sent hsend hlast => exact .inr (.inr (.inl ⟨hsend, Block.transmit_engState_last hlast, hlast⟩))
    | completed hawait =>
      refine .inr (.inr (.inr (.inl ⟨hawait, rfl, ?_⟩)))
      rw [finishExchange_engState, finishExchange_err]
      split
      next hnone => exact .inl ⟨rfl, hnone⟩
      next hcode => exact .inr ⟨rfl, hcode⟩
    | reset => exact .inr (.inr (.inr (.inr ⟨rfl, rfl⟩)))

/-- Settles O40: of the same five moves, one sets BUSY, and the idle step and reset clear it. -/
theorem busyChangesOnlyWithExchange : Obligations.BusyChangesOnlyWithExchange := by
  intro s t ⟨hc, hinv⟩ hstep
  obtain ⟨hbusy, _⟩ | hmove := (step_move hstep).2.exchange_cases
  · exact ⟨fun hb hb' => by simp [hbusy, hb] at hb', fun hb hb' => by simp [hbusy, hb] at hb'⟩
  · generalize t.blk = b' at hmove ⊢
    cases hmove with
    | rejected _ hb hb' => exact ⟨fun _ hset => by simp [hb'] at hset, fun hset => by simp [hb] at hset⟩
    | started ie hb he hfit =>
      exact ⟨fun _ _ => ⟨rfl, appendChecksum_txFrameLen_toNat (b := { s.blk with ie := ie, done := false }) hc hfit, he⟩,
        fun hset => by simp [hb] at hset⟩
    | sent hsend =>
      have hb : s.blk.busy = true := hinv.busyState.2 (.inl hsend)
      exact ⟨fun hclear => by simp [hb] at hclear, fun _ hclear => absurd hb (Bool.eq_false_iff.1 hclear)⟩
    | completed hawait => exact ⟨nofun, fun _ _ => .inl ⟨hawait, rfl, finishExchange_rxLen _ _⟩⟩
    | reset => exact ⟨nofun, fun _ _ => .inr rfl⟩

/-- Settles O41, by the moves that keep a busy block busy. -/
theorem exchangeInputsAreFrozen : Obligations.ExchangeInputsAreFrozen := by
  intro s t ⟨hc, _⟩ hstep hb hb'
  obtain ⟨htxLen, hframeLen, hrxLen, hcrc, htimeout, hdiv, herr, hbytes⟩ := (step_move hstep).2.keepsInputs hc hb hb'
  exact ⟨htxLen, hframeLen, hrxLen, hcrc, htimeout, hdiv, herr, hbytes⟩

/-- Settles O47: the one event that is not taken is a frame of fewer than three bytes. -/
theorem stepAlwaysAnswers : Obligations.StepAlwaysAnswers := fun s => runEvent_answers s.nextEvent s.advance

end Sys2Proof.Proofs
end

section
/-!
Laws of the registers' window: where an aligned word access leads, and the words that registers read as.
-/
namespace Sys2Proof.Machine
open Sys2Proof.Claims

/-! ### Reads (R89) -/

/-- A read only sets the response, and where the value is unspecified it also takes a free one (U2). -/
theorem memRead_cases (a n : Nat) (s : State) :
    ∃ r, memRead a n s = s.respond r ∨ memRead a n s = s.drew.respond r := by
  obtain ⟨_, h, _⟩ | ⟨_, _, h, _⟩ | ⟨_, _, i, size, _, h, _⟩ := memAccess_cases a n s
  · exact ⟨_, .inl h⟩
  · rw [h, csrRead]
    split
    · exact ⟨_, .inr rfl⟩
    · split
      · exact ⟨_, .inr rfl⟩
      · exact ⟨_, .inl rfl⟩
  · rw [h, bufRead]
    split
    · exact ⟨_, .inl rfl⟩
    · split
      · exact ⟨_, .inr rfl⟩
      · exact ⟨_, .inl rfl⟩

/-! ### Aligned words of the registers (R83) -/

section Csr
variable {a : Nat}

theorem memRead_csr (ha : a ≤ 0xFF) (h4 : a % 4 = 0) (s : State) : memRead a 4 s = csrRead a s := by
  rw [memRead, if_neg (by simp [badShape, h4]), windowOf_csr ha]
  rfl

theorem memWrite_csr (ha : a ≤ 0xFF) (h4 : a % 4 = 0) (v : Word) (s : State) : memWrite a 4 v s = csrWrite a v s := by
  rw [memWrite, if_neg (by simp [badShape, h4]), windowOf_csr ha]
  rfl

/-- A word read of a register. -/
theorem busAccess_rd32 (ha : a ≤ 0xFF) (h4 : a % 4 = 0) (s : State) : busAccess (rd32 a) s = .next (csrRead a s) :=
  congrArg Host.Outcome.next (memRead_csr ha h4 s)

/-- A word write to a register that is no instruction. -/
theorem busAccess_wr32 (ha : a ≤ 0xFF) (h4 : a % 4 = 0) (h0 : a ≠ 0x00) (h18 : a ≠ 0x18) (v : Word) (s : State) :
    busAccess ⟨.W, 4, a, v⟩ s = .next (csrWrite a v s) := by
  rw [busAccess_write v s (by omega), memWrite_csr ha h4]

end Csr

/-- A register whose value is specified reads as it (U2). -/
theorem csrRead_specified {off : Nat} {s : State} (h : s.blk.busy = true → off ≠ 0x04 ∧ unspecifiedWhileBusy off = false) :
    csrRead off s = s.respond (.data (csrValue s.cfg s.blk off)) := by
  cases hb : s.blk.busy with
  | false => simp [csrRead, hb]
  | true =>
    obtain ⟨h4, hu⟩ := h hb
    simp [csrRead, hu, h4]

/-! ### The words CTRL, STATUS and CAPS (R34, R36, R38, R39) -/

theorem ctrlWord_eq (b : Block) : b.ctrlWord = if b.ie then 0x100 else 0 := by
  unfold Block.ctrlWord
  cases b.ie <;> rfl

theorem capsWord_eq (c : Config) : capsWord c = if c.enginePresent then 1 else 0 := by
  unfold capsWord
  cases c.enginePresent <;> rfl

section Status
variable (b : Block) (err : BitVec 4) (rxStatus rxReserved : Byte)

theorem statusWith_flags :
    (b.statusWith err rxStatus rxReserved).getLsbD 0 = b.busy ∧
    (b.statusWith err rxStatus rxReserved).getLsbD 1 = b.done ∧
    (b.statusWith err rxStatus rxReserved).getLsbD 2 = b.cmdOverrun ∧
    (b.statusWith err rxStatus rxReserved).getLsbD 3 = false := by
  simp only [Block.statusWith, BitVec.getLsbD_append, BitVec.getLsbD_ofBool]
  simp

@[simp] theorem statusWith_err : (b.statusWith err rxStatus rxReserved).extractLsb' 4 4 = err := by
  refine BitVec.eq_of_getLsbD_eq fun k hk => ?_
  simp only [Block.statusWith, BitVec.getLsbD_extractLsb', BitVec.getLsbD_append]
  simp [hk, Nat.add_comm]

@[simp] theorem statusWith_rxStatus : (b.statusWith err rxStatus rxReserved).extractLsb' 8 8 = rxStatus := by
  refine BitVec.eq_of_getLsbD_eq fun k hk => ?_
  simp only [Block.statusWith, BitVec.getLsbD_extractLsb', BitVec.getLsbD_append]
  simp [hk, Nat.add_comm]

@[simp] theorem statusWith_rxReserved : (b.statusWith err rxStatus rxReserved).extractLsb' 16 8 = rxReserved := by
  refine BitVec.eq_of_getLsbD_eq fun k hk => ?_
  simp only [Block.statusWith, BitVec.getLsbD_extractLsb', BitVec.getLsbD_append]
  simp [hk, Nat.add_comm]

@[simp] theorem statusWith_high : (b.statusWith err rxStatus rxReserved).extractLsb' 24 8 = 0#8 := by
  refine BitVec.eq_of_getLsbD_eq fun k hk => ?_
  simp only [Block.statusWith, BitVec.getLsbD_extractLsb', BitVec.getLsbD_append]
  simp [hk, Nat.add_comm]

end Status

/-- STATUS always reads as its layout, and with its result fields while BUSY = 0 (R36, R38). -/
theorem csrRead_status (s : State) :
    ∃ err rxStatus rxReserved,
      (csrRead 0x04 s).host.response = .data (s.blk.statusWith err rxStatus rxReserved) ∧
      (s.blk.busy = false → err = s.blk.err.code ∧ rxStatus = s.blk.rxStatus ∧ rxReserved = s.blk.rxReserved) := by
  cases hb : s.blk.busy with
  | false =>
    rw [csrRead_specified (by simp [hb])]
    exact ⟨_, _, _, rfl, fun _ => ⟨rfl, rfl, rfl⟩⟩
  | true =>
    refine ⟨s.freeWord.extractLsb' 4 4, s.freeWord.extractLsb' 8 8, s.freeWord.extractLsb' 16 8, ?_, nofun⟩
    simp [csrRead, hb, unspecifiedWhileBusy, Block.statusWhileBusy]

/-! ### The register map (R33, R37, R50) -/

theorem csrValue_unused {off : Nat} (h : off = 0x38 ∨ off = 0x3C ∨ 0x4C ≤ off) (c : Config) (b : Block) :
    csrValue c b off = 0 := by
  obtain rfl | rfl | h := h
  · rfl
  · rfl
  · obtain ⟨k, rfl⟩ := Nat.exists_eq_add_of_le' h
    rfl

/-- Read-only registers and unused offsets ignore writes (R33). -/
theorem csrWrite_ignored {off : Nat} (h : off ∉ [0x04, 0x14, 0x1C, 0x24, 0x44, 0x48]) (v : Word) (s : State) :
    csrWrite off v s = s.wrote s.blk := by
  unfold csrWrite
  split
  iterate 6 exact absurd (by decide) h
  rfl

theorem busAccess_wr32_ignored {off : Nat} (hoff : off ≤ 0xFC) (h4 : off % 4 = 0)
    (h : off ∉ [0x00, 0x04, 0x14, 0x18, 0x1C, 0x24, 0x44, 0x48]) (v : Word) (s : State) :
    busAccess ⟨.W, 4, off, v⟩ s = .next (s.wrote s.blk) := by
  simp only [List.mem_cons, List.not_mem_nil, or_false, not_or] at h
  rw [busAccess_wr32 (by omega) h4 (by omega) (by omega), csrWrite_ignored (by simp; omega)]

theorem unlessBusy_free {s : State} (hb : s.blk.busy = false) (off : Nat) (b : Block) :
    unlessBusy off b s = s.wrote b := if_neg (by simp [hb])

/-- A STATUS write of 1 clears the flag, and one of 0 leaves it (R37). -/
theorem writeStatus_eq (v : Word) (b : Block) :
    b.writeStatus v = { b with
      done := if v.getLsbD 1 then false else b.done
      cmdOverrun := if v.getLsbD 2 then false else b.cmdOverrun } := by
  unfold Block.writeStatus
  cases v.getLsbD 1 <;> cases v.getLsbD 2 <;> simp

end Sys2Proof.Machine
end

section
/-!
The families `10_state.md` and `20_memory.md`: reads, and writes to the registers; BASE.
-/
namespace Sys2Proof.Proofs
open Sys2Proof.Machine

/-- Settles O33: a read sets the response, and at most the draw counter. -/
theorem readsHaveNoSideEffect : Obligations.ReadsHaveNoSideEffect := by
  intro s size off v
  refine ⟨_, busAccess_read size off v s, ?_⟩
  obtain ⟨r, h | h⟩ := memRead_cases off size s
  all_goals
    rw [h]
    exact ⟨rfl, rfl, rfl, rfl, rfl⟩

/-- Settles O34, by STATUS's layout. -/
theorem statusReadsItsFields : Obligations.StatusReadsItsFields := by
  intro s
  obtain ⟨err, rxStatus, rxReserved, hdata, hfields⟩ := csrRead_status s
  obtain ⟨hbusy, hdone, hoverrun, hzero⟩ := statusWith_flags s.blk err rxStatus rxReserved
  refine ⟨_, busAccess_rd32 (by decide) (by decide) s, _, hdata, hbusy, hdone, hoverrun, hzero, by simp, fun hb => ?_⟩
  simpa using hfields hb

/-- Settles O35, by the map of the registers. -/
theorem registersReadTheirValues : Obligations.RegistersReadTheirValues := by
  intro s off hoff h4 hbusy
  have hspec : csrRead off s = s.respond (.data (csrValue s.cfg s.blk off)) :=
    csrRead_specified fun hb => by simpa [unspecifiedWhileBusy, and_assoc] using hbusy hb
  refine ⟨_, busAccess_rd32 (by omega) h4 s, csrValue s.cfg s.blk off, by rw [hspec, respond_response], ?_⟩
  refine ⟨?_, ?_, ?_, ?_, ?_, ?_, ?_, ?_, ?_, ?_, ?_, ?_, ?_, ?_, ?_, ?_, fun h => csrValue_unused h s.cfg s.blk⟩
  all_goals rintro rfl
  · exact ctrlWord_eq s.blk
  · exact capsWord_eq s.cfg
  · rfl
  · rfl
  · exact BitVec.toNat_setWidth_of_le (by decide)
  · rfl
  · rfl
  · rfl
  · rfl
  · rfl
  · exact BitVec.toNat_setWidth_of_le (by decide)
  · exact BitVec.toNat_setWidth_of_le (by decide)
  · exact BitVec.toNat_setWidth_of_le (by decide)
  · simp only [csrValue]
    split
    · exact BitVec.toNat_setWidth_of_le (by decide)
    · rfl
  · rfl
  · rfl

/-- Settles O36, by what a STATUS write does to the two flags. -/
theorem statusWriteOneToClear : Obligations.StatusWriteOneToClear := by
  intro s v
  rw [busAccess_wr32 (by decide) (by decide) (by decide) (by decide)]
  exact congrArg (Host.Outcome.next <| s.wrote ·) (writeStatus_eq v s.blk)

/-- Settles O37, by the branches of a register write. -/
theorem registerWrites : Obligations.RegisterWrites := by
  intro s v hb
  refine ⟨?_, ?_, ?_, fun he => ⟨?_, ?_⟩, fun he => ⟨?_, ?_⟩,
    fun off hoff h4 hother => busAccess_wr32_ignored hoff h4 hother v s⟩
  all_goals rw [busAccess_wr32 (by decide) (by decide) (by decide) (by decide)]
  · exact congrArg Host.Outcome.next (unlessBusy_free hb _ _)
  · exact congrArg Host.Outcome.next (unlessBusy_free hb _ _)
  · exact congrArg Host.Outcome.next (unlessBusy_free hb _ _)
  · exact congrArg Host.Outcome.next ((if_pos he).trans (unlessBusy_free hb _ _))
  · exact congrArg Host.Outcome.next ((if_pos he).trans (unlessBusy_free hb _ _))
  · exact congrArg Host.Outcome.next (if_neg (by simp [he]))
  · exact congrArg Host.Outcome.next (if_neg (by simp [he]))

/-- Settles O55, by the range test at BASE. -/
theorem blockAnswersAtBase : Obligations.BlockAnswersAtBase := by
  refine fun s a => ⟨fun ha => ?_, fun ha => ?_⟩
  · have hin : blockOffset s.cfg (s.cfg.base + a.off) = some a.off := by
      rw [blockOffset, if_pos (by omega), Nat.add_sub_cancel_left]
    simp only [runEvent, platformAccess, hin]
  · have hout : blockOffset s.cfg a.off = none := if_neg (by omega)
    simp only [runEvent, platformAccess, hout]

end Sys2Proof.Proofs
end

section
/-!
Laws of the commands' frames: the fields that CHECK and PARSE write, PARSE's dependence on the frame alone, and XCHG's
acceptance.
-/
namespace Sys2Proof.Machine
open Sys2Proof.Claims

/-- CHECK writes CRC, RX_TRAILER, ERR and DONE (R175). -/
theorem check_frame (c : Config) (b : Block) : check c b = { b with
    crc := (check c b).crc, rxTrailer := (check c b).rxTrailer, err := (check c b).err, done := true } := by
  unfold check
  simp only
  split
  · rfl
  · split <;> rfl

/-- PARSE writes ERR, DONE and the extraction registers (R202). -/
theorem parse_frame (c : Config) (b : Block) : parse c b = { b with
    err := (parse c b).err, done := true
    rxStatus := (parse c b).rxStatus, rxReserved := (parse c b).rxReserved, rxBodyLen := (parse c b).rxBodyLen
    rxTrailer := (parse c b).rxTrailer, rxHeader := (parse c b).rxHeader, rxFooter := (parse c b).rxFooter } := by
  unfold parse parseFields
  split <;> rfl

/-- PARSE's code depends on RX_LEN and the frame (R202): a frame of fewer than 6 bytes fails before a byte is looked at. -/
theorem parseCode_congr_of_frame {c : Config} {b b' : Block} (hlen : b.rxLen = b'.rxLen)
    (hbytes : ∀ i < b.rxLen.toNat, b.rxByte i = b'.rxByte i) : parseCode c b = parseCode c b' := by
  by_cases hshort : b.rxLen.toNat < 6
  · rw [parseCode_eq, parseCode_eq, ← hlen, if_pos hshort, if_pos hshort]
  · exact parseCode_congr hlen (rxFrom_congr fun i _ _ => hbytes i (by omega))
      (rxFrom_congr fun i _ _ => hbytes i (by omega)) (hbytes 3 (by omega))

/-- XCHG on a block with the engine branches on BUILD's check (R221). -/
theorem xchg_engine {c : Config} (he : c.enginePresent = true) (b : Block) : xchg c b =
    if txLengthOk c b then b.appendChecksum.startExchange
    else Block.complete .txLength { b.dropFrame with engState := .failed } := by
  rw [xchg, if_neg (by simp [he])]

theorem exec_xchg_success {s : State} (hb : s.blk.busy = false) (he : s.cfg.enginePresent = true)
    (h : s.blk.txLen.toNat ≠ 0 ∧ s.blk.txLen.toNat + 2 ≤ s.cfg.txbufSize) (ie : Bool) :
    exec (.xchg ie) s = .next (s.wrote (accepted s ie).appendChecksum.startExchange) :=
  congrArg Host.Outcome.next ((issue_free hb ie _).trans
    (congrArg s.wrote ((xchg_engine he _).trans (if_pos (txLengthOk_iff.2 h)))))

theorem exec_xchg_failure {s : State} (hb : s.blk.busy = false) (he : s.cfg.enginePresent = true)
    (h : ¬(s.blk.txLen.toNat ≠ 0 ∧ s.blk.txLen.toNat + 2 ≤ s.cfg.txbufSize)) (ie : Bool) :
    exec (.xchg ie) s =
      .next (s.wrote (Block.complete .txLength { (accepted s ie).dropFrame with engState := .failed })) :=
  congrArg Host.Outcome.next ((issue_free hb ie _).trans
    (congrArg s.wrote ((xchg_engine he _).trans (if_neg (mt txLengthOk_iff.1 h)))))

/-- A command is dropped or run (R35). -/
theorem issue_cases (ie : Bool) (cmd : Config → Block → Block) (s : State) :
    s.issue ie cmd = s.wrote { s.blk with ie := ie, cmdOverrun := true } ∨
      s.issue ie cmd = s.wrote (cmd s.cfg (accepted s ie)) := by
  by_cases hb : s.blk.busy = true
  · exact .inl (issue_busy hb ie cmd)
  · exact .inr (issue_free (Bool.eq_false_iff.2 hb) ie cmd)

end Sys2Proof.Machine
end

section
/-!
The families `41_builder.md`, `42_parser.md` and `43_engine.md`: CHECK, PARSE, XCHG, and R55's table of the commands that
store nothing.
-/
namespace Sys2Proof.Proofs
open Sys2Proof.Machine Sys2Proof.Claims

/-- Settles O15, by the branches of CHECK. -/
theorem checkCompares : Obligations.CheckCompares := by
  intro s ie hb L c r
  have hcomputed : (accepted s ie).checkComputed = c := congrArg crc16 (rxBytes_eq _ _)
  refine (exec_check_free hb ie).trans (congrArg (Host.Outcome.next <| s.wrote ·) ?_)
  unfold check
  simp only
  rw [hcomputed]
  rfl

/-- Settles O21: PARSE's frame, and that its code and what it extracts come from RX_LEN and the frame. -/
theorem parseIsPure : Obligations.ParseIsPure := by
  refine ⟨fun s ie hb => ⟨_, exec_parse_free hb ie, ⟨rfl, rfl⟩, rfl, parse_frame s.cfg (accepted s ie), ?_⟩, ?_⟩
  · intro hnone hdevice
    have hclears : ¬(parseCode s.cfg (accepted s ie)).extracts = true := fun hext =>
      ((ErrCode.extracts_iff _).1 hext).elim hnone hdevice
    rw [State.wrote_blk, parse_clears hclears]
    exact ⟨rfl, rfl, rfl, rfl, rfl, rfl⟩
  · intro s s' ie ie' hcfg hb hb' hlen hbytes
    have hcode : parseCode s.cfg s.blk = parseCode s'.cfg s'.blk := hcfg ▸ parseCode_congr_of_frame hlen hbytes
    by_cases hext : (parseCode s.cfg s.blk).extracts = true
    · obtain ⟨h10, _⟩ := extracts_parseCode hext
      have hend : ∀ k, 1 ≤ k → k ≤ 5 → s.blk.rxByte (s.blk.rxLen.toNat - k) = s'.blk.rxByte (s'.blk.rxLen.toNat - k) :=
        fun k _ _ => hlen ▸ hbytes _ (by omega)
      exact ⟨_, exec_parse_extracts hb hext ie, _, exec_parse_extracts hb' (hcode ▸ hext) ie', hcode,
        hbytes 3 (by omega), hbytes 4 (by omega), congrArg (fun n : Word => BitVec.ofNat 32 (n.toNat - 10)) hlen,
        congrArg₂ be16 (hend 5 (by omega) (by omega)) (hend 4 (by omega) (by omega)),
        congrArg₂ (fun x f => f x) (hbytes 2 (by omega))
          (congrArg₂ be24 (hbytes 0 (by omega)) (hbytes 1 (by omega))),
        congrArg₂ (fun x f => f x) (hend 1 (by omega) (by omega))
          (congrArg₂ be24 (hend 3 (by omega) (by omega)) (hend 2 (by omega) (by omega)))⟩
    · exact ⟨_, exec_parse_clears hb hext ie, _, exec_parse_clears hb' (hcode ▸ hext) ie', hcode,
        rfl, rfl, rfl, rfl, rfl, rfl⟩

/-- Settles O23, by the two outcomes of BUILD's check in XCHG. -/
theorem xchgAcceptance : Obligations.XchgAcceptance := by
  refine fun s ie hb he => ⟨fun hlen => exec_xchg_failure hb he hlen ie, fun hlen => ?_⟩
  exact ⟨_, exec_xchg_success hb he hlen ie, _, exec_build_success hb hlen ie, ⟨rfl, rfl⟩, rfl, rfl⟩

/-- Settles O48, instruction by instruction: a command is dropped or runs its body, whose frame is known. -/
theorem nonStoringCommandsFrame : Obligations.NonStoringCommandsFrame := by
  intro s t ie bit0 low b i hi hexec
  simp only [List.mem_cons, List.not_mem_nil, or_false] at hi
  obtain rfl | rfl | rfl | rfl | rfl | rfl | rfl := hi
  · cases hexec
    exact ⟨⟨rfl, rfl⟩, rfl, fun _ => rfl, rfl, fun _ => rfl, nofun, nofun, nofun, nofun, nofun⟩
  · obtain rfl := Host.Outcome.next.inj hexec
    obtain h | h := issue_cases ie (fun _ b => crcInit b) s
    all_goals
      rw [h]
      exact ⟨⟨rfl, rfl⟩, rfl, fun _ => rfl, rfl, nofun, nofun, fun _ => rfl, nofun, nofun, nofun⟩
  · obtain rfl := Host.Outcome.next.inj hexec
    obtain h | h := issue_cases ie parse s
    · rw [h]
      exact ⟨⟨rfl, rfl⟩, rfl, fun _ => rfl, rfl, nofun, nofun, nofun, nofun, fun _ => ⟨rfl, rfl⟩, nofun⟩
    · rw [h, parse_frame]
      exact ⟨⟨rfl, rfl⟩, rfl, fun _ => rfl, rfl, nofun, nofun, nofun, nofun, fun _ => ⟨rfl, rfl⟩, nofun⟩
  · obtain rfl := Host.Outcome.next.inj hexec
    obtain h | h := issue_cases ie check s
    · rw [h]
      exact ⟨⟨rfl, rfl⟩, rfl, fun _ => rfl, rfl, nofun, nofun, nofun, nofun, nofun, fun _ => rfl⟩
    · rw [h, check_frame]
      exact ⟨⟨rfl, rfl⟩, rfl, fun _ => rfl, rfl, nofun, nofun, nofun, nofun, nofun, fun _ => rfl⟩
  iterate 2
    · obtain rfl := Host.Outcome.next.inj hexec
      obtain h | h := issue_cases ie (fun _ b => illegal b) s
      all_goals
        rw [h]
        exact ⟨⟨rfl, rfl⟩, rfl, fun _ => rfl, rfl, nofun, nofun, nofun, fun _ => rfl, nofun, nofun⟩
  · by_cases hb : s.blk.busy = true
    · obtain rfl := Host.Outcome.next.inj ((exec_crcUpdate_busy hb b).symm.trans hexec)
      exact ⟨⟨rfl, rfl⟩, rfl, fun _ => rfl, rfl, nofun, fun _ => rfl, nofun, nofun, nofun, nofun⟩
    · obtain rfl := Host.Outcome.next.inj ((exec_crcUpdate_free (Bool.eq_false_iff.2 hb) b).symm.trans hexec)
      exact ⟨⟨rfl, rfl⟩, rfl, fun _ => rfl, rfl, nofun, fun _ => rfl, nofun, nofun, nofun, nofun⟩

end Sys2Proof.Proofs
end

section
/-!
Laws of how an operation begins on a free host, by the path it names.
-/
namespace Sys2Proof.Machine
open Sys2Proof.Claims

section Begin
variable {s : State} {u p : Bytes} {e : SandboxError}

theorem startOp_listDir_of_ok (h : normalizePath u = .ok p) (s : State) :
    startOp (.listDir (some u)) s = startExchange .listDir 0x03 p s.forgetResult := by
  cases u with
  | nil =>
    obtain rfl : root = p := Except.ok.inj h
    rfl
  | cons b rest =>
    simp only [startOp, h]
    rfl

theorem startOp_download_of_ok (h : normalizePath u = .ok p) (dest : Dest) (s : State) :
    startOp (.download u dest) s = startExchange (.download dest) 0x05 p s.forgetResult := by
  simp only [startOp, h]
  rfl

theorem startOp_remove_of_ok (h : normalizePath u = .ok p) (s : State) :
    startOp (.remove u) s = startExchange .remove 0x07 p s.forgetResult := by
  simp only [startOp, h]
  rfl

/-- A path that the sandbox rejects lists nothing, and that is no error (R267). -/
theorem startOp_listDir_of_error (hne : u ≠ []) (h : normalizePath u = .error e) (s : State) :
    startOp (.listDir (some u)) s = s.forgetResult.finish (.listing []) := by
  cases u with
  | nil => exact absurd rfl hne
  | cons b rest =>
    simp only [startOp, h]
    rfl

/-- The other procedures end with the sandbox's error (R269, R270, R276). -/
theorem startOp_of_error (h : normalizePath u = .error e) {op : HostOp} {dest : Dest} {src : Option Bytes}
    (hop : op ∈ [HostOp.download u dest, .upload src u, .remove u]) (s : State) :
    startOp op s = s.forgetResult.finish (.failed (sandboxFailure e)) := by
  simp only [List.mem_cons, List.not_mem_nil, or_false] at hop
  obtain rfl | rfl | rfl := hop
  all_goals
    simp only [startOp, h]
    rfl

/-! The checks of an Upload whose path the sandbox accepts (R270). -/

theorem startUpload_of_long (h : pathMax < p.length) (src : Option Bytes) (s : State) :
    startUpload src p s = s.finish (.failed .pathTooLong) := if_pos h

theorem startUpload_of_unreadable (h : p.length ≤ pathMax) (s : State) :
    startUpload none p s = s.finish (.failed .localIOError) := if_neg (Nat.not_lt.2 h)

theorem startUpload_of_empty (h : p.length ≤ pathMax) (s : State) :
    startUpload (some []) p s = s.finish (.uploaded 0) := if_neg (Nat.not_lt.2 h)

end Begin

/-- On a free host an operation is taken up at once (R278). -/
theorem runEvent_request_of_free {s : State} (h : s.host.free = true) (op : HostOp) :
    runEvent (.request op) s = .next (startOp op s) := congrArg Host.Outcome.next (request_of_free h op)

/-- A command frame is taken up as the operation that exchanges it (assumption 12). -/
theorem request_send_of_free {s : State} (h : s.host.free = true) (kind : TaskKind) (op : Byte) (p : Bytes) :
    request (.send kind op p) s = startExchange kind op p s.forgetResult := request_of_free h _

/-- STATUS reads 0 after reset (R341). -/
theorem statusWord_reset (c : Config) (epoch : Nat) : (Block.reset c epoch).statusWord = 0 :=
  show (0#8 ++ 0#8 ++ 0#8 ++ 0#4 ++ 0#1 ++ BitVec.ofBool false ++ BitVec.ofBool false ++ BitVec.ofBool false : Word) = 0
    by decide

end Sys2Proof.Machine
end

section
/-!
The families `44_transfer_procedures.md` and `70_reset_and_hazards.md`: how operations begin, what Download and Remove make
of a body, and reset.
-/
namespace Sys2Proof.Proofs
open Sys2Proof.Machine Sys2Proof.Claims

/-- Settles O43, by the table of reset values; the divisor is rounded as UART_DIV's rule says. -/
theorem resetValues : Obligations.ResetValues := by
  intro c hclock s
  have hdiv : s.blk.uartDiv.toNat = max 1 ((c.fClkHz + 57600) / 115200) := by
    refine (resetDivisor_toNat c).trans ?_
    omega
  exact ⟨rfl, rfl, rfl, rfl, rfl, rfl, rfl, rfl, rfl, rfl, rfl, rfl, rfl, rfl, rfl, rfl, rfl, rfl, hdiv, rfl, rfl, rfl,
    rfl, rfl, rfl, rfl, fun _ => rfl, ctrlWord_eq s.blk, statusWord_reset c 0, rfl, capsWord_eq c, rfl, rfl⟩

/-- Settles O44: after reset nothing captures, so that a byte from the line is discarded. -/
theorem resetAbandonsExchange : Obligations.ResetAbandonsExchange := by
  refine fun s => ⟨resetBlock s, rfl, rfl, rfl, fun hhost b => congrArg Host.Outcome.next ?_⟩
  rw [lineByte_of_not_collecting (s := resetBlock s) hhost, receive_of_not_capturing (s := resetBlock s) rfl]

/-- Settles O49: a free host takes each operation up at once, and an accepted path is the exchange's payload. -/
theorem wireOpcodesBeginTheirExchange : Obligations.WireOpcodesBeginTheirExchange := by
  intro s hfree
  refine ⟨fun p chunk flag => ⟨?_, ?_, ?_, ?_⟩, fun path hpath => ?_, fun u p dest hok => ⟨?_, ?_, ?_⟩⟩
  · exact ⟨_, congrArg Host.Outcome.next (request_send_of_free hfree _ _ p), rfl, rfl, rfl, rfl⟩
  · exact ⟨_, congrArg Host.Outcome.next (request_send_of_free hfree _ _ p), rfl, rfl, rfl, rfl⟩
  · rw [List.append_assoc]
    exact ⟨_, congrArg Host.Outcome.next (request_send_of_free hfree _ _ _), rfl, rfl, rfl, rfl⟩
  · exact ⟨_, congrArg Host.Outcome.next (request_send_of_free hfree _ _ p), rfl, rfl, rfl, rfl⟩
  · simp only [List.mem_cons, List.not_mem_nil, or_false] at hpath
    obtain rfl | rfl := hpath
    all_goals exact ⟨_, runEvent_request_of_free hfree _, rfl, rfl, rfl, rfl⟩
  · rw [runEvent_request_of_free hfree, startOp_listDir_of_ok hok]
    exact ⟨_, rfl, rfl, rfl, rfl, rfl⟩
  · rw [runEvent_request_of_free hfree, startOp_download_of_ok hok]
    exact ⟨_, rfl, rfl, rfl, rfl, rfl⟩
  · rw [runEvent_request_of_free hfree, startOp_remove_of_ok hok]
    exact ⟨_, rfl, rfl, rfl, rfl, rfl⟩

/-- Settles O53: Remove looks for the bytes of "ok" anywhere in the body. -/
theorem downloadAndRemoveJudgeBody : Obligations.DownloadAndRemoveJudgeBody := by
  refine fun s body => ⟨rfl, rfl, rfl, fun hok => ?_, fun hno => ?_⟩
  · exact congrArg some (if_pos ((containsSeq_iff okText body).2 hok))
  · exact congrArg some (if_neg (mt (containsSeq_iff okText body).1 hno))

/-- Settles O57, by the three checks before an exchange: the sandbox, the path's length, and the source. -/
theorem rejectedPathsSendNothing : Obligations.RejectedPathsSendNothing := by
  intro s u dest src hfree
  refine ⟨fun e herr => ⟨fun hne => ?_, fun op hop => ?_⟩, fun p hok hlong => ?_, fun p hok hlen hsrc => ?_⟩
  · rw [runEvent_request_of_free hfree, startOp_listDir_of_error hne herr]
    exact ⟨_, rfl, rfl, rfl, rfl, rfl, rfl⟩
  · rw [runEvent_request_of_free hfree, startOp_of_error herr hop]
    refine ⟨_, rfl, rfl, rfl, ⟨rfl, rfl⟩, ?_⟩
    cases e <;> rfl
  · rw [runEvent_request_of_free hfree, startOp_upload_of_ok hok, startUpload_of_long hlong]
    exact ⟨_, rfl, rfl, rfl, rfl, rfl, rfl⟩
  · subst hsrc
    rw [runEvent_request_of_free hfree, startOp_upload_of_ok hok, startUpload_of_unreadable hlen]
    exact ⟨_, rfl, rfl, rfl, rfl, rfl, rfl⟩

/-- Settles O58, by what the start of an Upload and `sendChunk` do; a chunk is at most 256 of the bytes left. -/
theorem chunksAreSentInOrder : Obligations.ChunksAreSentInOrder := by
  refine ⟨fun s user p data hfree hok hlen => ⟨fun hdata => ?_, ?_⟩, fun s u => ?_⟩
  · refine ⟨_, rfl, ?_⟩
    rw [request_upload_sends hfree hok hlen hdata]
    exact ⟨exchanging_sendChunk (.initial p data) _, rfl, rfl, rfl⟩
  · rw [runEvent_request_of_free hfree, startOp_upload_of_ok hok, startUpload_of_empty hlen]
    exact ⟨_, rfl, rfl, rfl, rfl, rfl, rfl⟩
  · refine ⟨exchanging_sendChunk u s, List.take_append_drop 256 u.rest, fun hrest => ⟨?_, ?_⟩, rfl, rfl, rfl⟩
    · simpa using hrest
    · exact List.length_take_le 256 u.rest

end Sys2Proof.Proofs
end

section
/-!
Laws of the checksum's steps: each can be undone, so that no difference is lost.
-/
namespace Sys2Proof.Machine

/-- The top bit after a shift is the bit shifted out: the polynomial's top bit is 1, and the shift leaves 0 there. -/
theorem crcShift_top (c : Half) : (crcShift c).getLsbD 15 = c.getLsbD 0 := by
  have hpoly : crcPoly.getLsbD 15 = true := by decide
  unfold crcShift
  split
  next h => simp only [BitVec.getLsbD_xor, hpoly, h]; simp
  next h => simp only [Bool.not_eq_true] at h; simp only [h]; simp

theorem crcShift_injective : Function.Injective crcShift := by
  intro c d h
  have hout : c.getLsbD 0 = d.getLsbD 0 := by rw [← crcShift_top, h, crcShift_top]
  have hkept : c >>> 1 = d >>> 1 := by
    unfold crcShift at h
    rw [hout] at h
    split at h
    · exact (BitVec.xor_left_inj _).1 h
    · exact h
  refine BitVec.eq_of_getLsbD_eq fun k hk => ?_
  cases k with
  | zero => exact hout
  | succ k => simpa [Nat.add_comm] using congrArg (·.getLsbD k) hkept

theorem crcStep_injective_left (b : Byte) : Function.Injective (crcStep · b) := fun _ _ h =>
  (BitVec.xor_left_inj _).1 (crcShift_injective.iterate 8 h)

theorem crcStep_injective_right (c : Half) : Function.Injective (crcStep c) := fun x y h => by
  have hwide : x.setWidth 16 = y.setWidth 16 := (BitVec.xor_right_inj _).1 (crcShift_injective.iterate 8 h)
  simpa using congrArg (·.setWidth 8) hwide

theorem crcFrom_injective (s : Bytes) : Function.Injective (crcFrom · s) := by
  induction s with
  | nil => exact Function.injective_id
  | cons b s ih => exact ih.comp (crcStep_injective_left b)

end Sys2Proof.Machine
end

section
/-!
The family `40_checksum.md`: what the checksum is good for.
-/
namespace Sys2Proof.Proofs
open Sys2Proof.Machine

/-- Settles O10: the checksums differ after the differing byte, and every later step keeps them apart. -/
theorem checksumDetectsOneWrongByte : Obligations.ChecksumDetectsOneWrongByte := by
  intro before after x y hne heq
  rw [crc16, crc16, crcFrom_append, crcFrom_append] at heq
  exact hne (crcStep_injective_right _ (crcFrom_injective after heq))

end Sys2Proof.Proofs
end

section
/-!
Laws of runs: what a run of an exchange works on, how runs follow one another, and the host's turns, one access each.
-/
namespace Sys2Proof.Machine
open Sys2Proof.Claims

/-! ### Runs -/

/-- What the run of an exchange works on: everything but the last response and the host's records. -/
structure View where
  cfg : Config
  blk : Block
  env : Environment
  task : Option Task
  useIrq : Bool

def State.view (s : State) : View := ⟨s.cfg, s.blk, s.env, s.host.task, s.host.useIrq⟩

/-- From every state with the view `v`, the events answer and lead to a state that satisfies `Q`. -/
def RunsTo (es : List Event) (v : View) (Q : State → Prop) : Prop := ∀ s : State, s.view = v → Answers (play es s) Q

/-- The events lead from one view to another. -/
abbrev Runs (es : List Event) (v v' : View) : Prop := RunsTo es v fun t => t.view = v'

theorem play_append (es fs : List Event) (s : State) : play (es ++ fs) s = andThen (play es s) (play fs) := by
  induction es generalizing s with
  | nil => rfl
  | cons e es ih =>
    rw [List.cons_append, play, play]
    cases runEvent e s with
    | next t => exact ih t
    | fault r => rfl
    | refused r => rfl

theorem RunsTo.append {es fs : List Event} {v v' : View} {Q : State → Prop} (h : Runs es v v') (h' : RunsTo fs v' Q) :
    RunsTo (es ++ fs) v Q := by
  intro s hs
  obtain ⟨t, ht, hview⟩ := h s hs
  rw [play_append, ht]
  exact h' t hview

theorem RunsTo.cons {e : Event} {es : List Event} {v v' : View} {Q : State → Prop} (h : Runs [e] v v')
    (h' : RunsTo es v' Q) : RunsTo (e :: es) v Q := h.append h'

theorem RunsTo.mono {es : List Event} {v : View} {Q Q' : State → Prop} (h : RunsTo es v Q) (hQ : ∀ t, Q t → Q' t) :
    RunsTo es v Q' := by
  intro s hs
  obtain ⟨t, ht, hq⟩ := h s hs
  exact ⟨t, ht, hQ t hq⟩

theorem runs_nil (v : View) : Runs [] v v := fun s hs => ⟨s, rfl, hs⟩

theorem runsTo_single {e : Event} {v : View} {Q : State → Prop}
    (h : ∀ s, s.view = v → Answers (runEvent e s) Q) : RunsTo [e] v Q := by
  intro s hs
  obtain ⟨t, ht, hq⟩ := h s hs
  exact ⟨t, by rw [play, ht]; rfl, hq⟩

/-! ### The host's turns -/

theorem hostTurn_of_task {s : State} {t : Task} (h : s.host.task = some t) : hostTurn s = taskTurn t s := by
  rw [hostTurn, h]

/-- With the parameters `c`, the block `b` takes the write `a` and becomes `b'`. -/
def Block.Writes (c : Config) (b : Block) (a : Access) (b' : Block) : Prop :=
  ∀ s : State, s.cfg = c → s.blk = b → busAccess a s = .next (s.wrote b')

/-- With the parameters `c`, the block `b` answers the read `a` with `v`. -/
def Block.Reads (c : Config) (b : Block) (a : Access) (v : Word) : Prop :=
  ∀ s : State, s.cfg = c → s.blk = b → busAccess a s = .next (s.respond (.data v))

/-- The block `b` takes the writes, one after another, and becomes `b'`. -/
def Block.WritesAll (c : Config) : Block → List Access → Block → Prop
  | b, [], b' => b = b'
  | b, a :: rest, b' => ∃ b₁, b.Writes c a b₁ ∧ Block.WritesAll c b₁ rest b'

theorem Block.WritesAll.append {c : Config} {as as' : List Access} : ∀ {b b' b'' : Block}, b.WritesAll c as b' →
    b'.WritesAll c as' b'' → b.WritesAll c (as ++ as') b'' := by
  induction as with
  | nil => rintro b b' b'' rfl h'; exact h'
  | cons a as ih => rintro b b' b'' ⟨b₁, ha, h⟩ h'; exact ⟨b₁, ha, ih h h'⟩

section Turns
variable {c : Config} {b b' : Block} {env : Environment} {kind : TaskKind} {irq : Bool}

/-- One turn of a procedure, by its phase. -/
theorem runsTo_hostTurn {phase : Phase} {Q : State → Prop}
    (h : ∀ s, s.view = ⟨c, b, env, some ⟨kind, phase⟩, irq⟩ → s.cfg = c → s.blk = b →
      Answers (taskTurn ⟨kind, phase⟩ s) Q) :
    RunsTo [.hostTurn] ⟨c, b, env, some ⟨kind, phase⟩, irq⟩ Q := by
  refine runsTo_single fun s hs => ?_
  have ht : runEvent .hostTurn s = taskTurn ⟨kind, phase⟩ s := hostTurn_of_task (congrArg View.task hs)
  rw [ht]
  exact h s hs (congrArg View.cfg hs) (congrArg View.blk hs)

/-- A view after a write or a read, and with the next phase. -/
theorem view_wrote {s : State} {t : Option Task} (h : s.view = ⟨c, b, env, t, irq⟩) (t' : Option Task) :
    ((s.wrote b').setTask t').view = ⟨c, b', env, t', irq⟩ := by
  simp only [State.view, View.mk.injEq] at h ⊢
  obtain ⟨hcfg, _, henv, _, hirq⟩ := h
  exact ⟨hcfg, rfl, henv, rfl, hirq⟩

theorem view_respond {s : State} {v : View} (h : s.view = v) (r : Response) : (s.respond r).view = v := h

theorem view_setTask {s : State} {t : Option Task} (h : s.view = ⟨c, b, env, t, irq⟩) (t' : Option Task) :
    (s.setTask t').view = ⟨c, b, env, t', irq⟩ := by
  simp only [State.view, View.mk.injEq] at h ⊢
  obtain ⟨hcfg, hblk, henv, _, hirq⟩ := h
  exact ⟨hcfg, hblk, henv, rfl, hirq⟩

/-- A turn that issues the next write. -/
theorem runs_write {a : Access} {rest : List Access} {next : AfterWrites} (h : b.Writes c a b') :
    Runs [.hostTurn] ⟨c, b, env, some ⟨kind, .issue (a :: rest) next⟩, irq⟩
      ⟨c, b', env, some ⟨kind, issued rest next⟩, irq⟩ := by
  refine runsTo_hostTurn fun s hs hc hb => ?_
  have hturn : taskTurn ⟨kind, .issue (a :: rest) next⟩ s =
      .next ((s.wrote b').setTask (some ⟨kind, issued rest next⟩)) := by
    rw [taskTurn]
    simp only [h s hc hb]
    rfl
  exact ⟨_, hturn, view_wrote hs _⟩

/-- The turns that issue a list of writes. -/
theorem runs_writes {next : AfterWrites} {as : List Access} (hne : as ≠ []) : ∀ {b : Block}, b.WritesAll c as b' →
    Runs (List.replicate as.length .hostTurn) ⟨c, b, env, some ⟨kind, .issue as next⟩, irq⟩
      ⟨c, b', env, some ⟨kind, next.phase⟩, irq⟩ := by
  induction as with
  | nil => exact absurd rfl hne
  | cons a as ih =>
    rintro b ⟨b₁, ha, has⟩
    refine RunsTo.cons (runs_write ha) ?_
    cases as with
    | nil =>
      obtain rfl := has
      exact runs_nil _
    | cons a' as => exact ih nofun has

/-- A turn that reads: the procedure goes on with the value. -/
theorem runsTo_read {phase : Phase} {a : Access} {v : Word} {k : Word → State → State} {Q : State → Prop}
    (hphase : ∀ s, taskTurn ⟨kind, phase⟩ s = readThen kind a k s) (ha : b.Reads c a v)
    (hk : ∀ s, s.view = ⟨c, b, env, some ⟨kind, phase⟩, irq⟩ → Q (k v s)) :
    RunsTo [.hostTurn] ⟨c, b, env, some ⟨kind, phase⟩, irq⟩ Q := by
  refine runsTo_hostTurn fun s hs hc hb => ⟨k v (s.respond (.data v)), ?_, hk _ (view_respond hs _)⟩
  rw [hphase, readThen, ha s hc hb]
  rfl

end Turns

end Sys2Proof.Machine
end

section
/-!
Laws of an exchange's end: the host reads STATUS, RX_BODY_LEN, and the body byte by byte.
-/
namespace Sys2Proof.Machine
open Sys2Proof.Claims

/-! ### The reads of an idle block -/

theorem csr_reads {c : Config} {b : Block} (hb : b.busy = false) {off : Nat} (hoff : off ≤ 0xFF) (h4 : off % 4 = 0) :
    b.Reads c (rd32 off) (csrValue c b off) := by
  rintro s rfl rfl
  rw [busAccess_rd32 hoff h4, csrRead_specified (by simp [hb])]

theorem rxByte_reads {c : Config} {b : Block} (hc : c.Legal) (hb : b.busy = false) {i : Nat} (hi : i < c.rxbufSize) :
    b.Reads c (rd8 (rxBase + i)) ((b.rxByte i).setWidth 32) := by
  rintro s rfl rfl
  exact busAccess_read_buffer_free hc (.inr ⟨rfl, rfl⟩) hi hb (.inl rfl) 0

theorem txByte_reads {c : Config} {b : Block} (hc : c.Legal) (hb : b.busy = false) {i : Nat} (hi : i < c.txbufSize) :
    b.Reads c (rd8 (txBase + i)) ((b.txByte i).setWidth 32) := by
  rintro s rfl rfl
  exact busAccess_read_buffer_free hc (.inl ⟨rfl, rfl⟩) hi hb (.inl rfl) 0

/-! ### What the host makes of ERR (R266) -/

/-- The code with which the body is read: NONE, or DEVICE_ERROR for its message. -/
def bodyCode (deviceError : Bool) : ErrCode := if deviceError then .deviceError else .none

theorem statusRead_body {v : Word} {de : Bool} (h : v.extractLsb' 4 4 = (bodyCode de).code) (kind : TaskKind) (s : State) :
    statusRead kind v s = s.setTask (some ⟨kind, .readBodyLen de⟩) := by
  cases de with
  | false => exact if_pos h
  | true => exact (if_neg (by rw [h]; decide)).trans (if_pos h)

theorem statusRead_error {v : Word} {e : BitVec 4} (h : v.extractLsb' 4 4 = e) (hnone : e ≠ ErrCode.none.code)
    (hdevice : e ≠ ErrCode.deviceError.code) (kind : TaskKind) (s : State) :
    statusRead kind v s = exchangeError kind (errorOf e) s := by
  subst h
  exact (if_neg hnone).trans (if_neg hdevice)

theorem failedWith_exchangeError (kind : TaskKind) (e : HostError) (s : State) :
    failedWith kind e s (exchangeError kind e s) := by
  cases kind <;> exact ⟨rfl, ⟨rfl, rfl, rfl⟩, rfl⟩

/-! ### The body (R265) -/

section Body
variable {c : Config} {b : Block} {env : Environment} {kind : TaskKind} {irq : Bool}

/-- The read of the body's next byte. -/
theorem body_reads (hc : c.Legal) (hb : b.busy = false) {got : Bytes} (h : 5 + got.length < c.rxbufSize) :
    b.Reads c (rd8 (rxBase + 5 + got.length)) ((b.rxByte (5 + got.length)).setWidth 32) := by
  rw [Nat.add_assoc]
  exact rxByte_reads hc hb h

/-- In `t` the procedure `kind` has read `body`, and the block and the environment are those of the run. -/
def HasRead (c : Config) (b : Block) (env : Environment) (kind : TaskKind) (de : Bool) (body : Bytes) (t : State) : Prop :=
  ∃ u : State, u.cfg = c ∧ u.blk = b ∧ u.env = env ∧ t = bodyRead kind de body u

theorem hasRead_bodyRead {task : Option Task} {s : State} (h : s.view = ⟨c, b, env, task, irq⟩) (de : Bool) (body : Bytes) :
    HasRead c b env kind de body (bodyRead kind de body s) :=
  ⟨s, congrArg View.cfg h, congrArg View.blk h, congrArg View.env h, rfl⟩

/-- The turns that read the last `left + 1` bytes of a body of which `got` has been read. -/
theorem runsTo_readBody (hc : c.Legal) (hb : b.busy = false) (de : Bool) (left : Nat) :
    ∀ got : Bytes, 5 + got.length + left < c.rxbufSize →
      RunsTo (List.replicate (left + 1) .hostTurn) ⟨c, b, env, some ⟨kind, .readBody de (left + 1) got⟩, irq⟩
        (HasRead c b env kind de (got ++ b.rxFrom (5 + got.length) (left + 1))) := by
  induction left with
  | zero =>
    intro got hfit
    refine runsTo_read (fun _ => rfl) (body_reads hc hb (by omega)) fun s hs => ?_
    simpa [Block.rxFrom] using hasRead_bodyRead hs de (got ++ [b.rxByte (5 + got.length)])
  | succ left ih =>
    intro got hfit
    have hread : Runs [.hostTurn] ⟨c, b, env, some ⟨kind, .readBody de (left + 2) got⟩, irq⟩
        ⟨c, b, env, some ⟨kind, .readBody de (left + 1) (got ++ [b.rxByte (5 + got.length)])⟩, irq⟩ := by
      refine runsTo_read (fun _ => rfl) (body_reads hc hb (by omega)) fun s hs => ?_
      simpa using view_setTask hs _
    have hrest := ih (got ++ [b.rxByte (5 + got.length)]) (by simp; omega)
    rw [rxFrom_cons, List.append_cons, List.replicate_succ]
    exact hread.cons (by simpa [Nat.add_assoc] using hrest)

/-- The turns from the read of STATUS on, at a code with a body. -/
theorem runsTo_readStatus (hc : c.Legal) (hb : b.busy = false) {de : Bool} (herr : b.err = bodyCode de)
    (hfit : b.rxBodyLen.toNat + 5 ≤ c.rxbufSize) :
    RunsTo (List.replicate (b.rxBodyLen.toNat + 2) .hostTurn) ⟨c, b, env, some ⟨kind, .readStatus⟩, irq⟩
      (HasRead c b env kind de (b.rxFrom 5 b.rxBodyLen.toNat)) := by
  have hstatus : Runs [.hostTurn] ⟨c, b, env, some ⟨kind, .readStatus⟩, irq⟩
      ⟨c, b, env, some ⟨kind, .readBodyLen de⟩, irq⟩ := by
    refine runsTo_read (fun _ => rfl) (csr_reads hb (off := 0x04) (by decide) (by decide)) fun s hs => ?_
    have hcode : (csrValue c b 0x04).extractLsb' 4 4 = (bodyCode de).code := herr ▸ statusWith_err _ _ _ _
    rw [statusRead_body hcode]
    exact view_setTask hs _
  rw [List.replicate_succ]
  refine hstatus.cons ?_
  have hlen : b.Reads c (rd32 0x28) b.rxBodyLen := csr_reads hb (by decide) (by decide)
  by_cases hzero : b.rxBodyLen = 0
  · rw [hzero] at hlen ⊢
    exact runsTo_read (fun _ => rfl) hlen fun s hs => hasRead_bodyRead hs de []
  · obtain ⟨n, hn⟩ : ∃ n, b.rxBodyLen.toNat = n + 1 :=
      Nat.exists_eq_succ_of_ne_zero fun h => hzero (BitVec.eq_of_toNat_eq h)
    have hfirst : Runs [.hostTurn] ⟨c, b, env, some ⟨kind, .readBodyLen de⟩, irq⟩
        ⟨c, b, env, some ⟨kind, .readBody de (n + 1) []⟩, irq⟩ := by
      refine runsTo_read (fun _ => rfl) hlen fun s hs => ?_
      rw [if_neg hzero, hn]
      exact view_setTask hs _
    rw [hn, List.replicate_succ]
    exact hfirst.cons (runsTo_readBody hc hb de n [] (by simp; omega))

end Body

end Sys2Proof.Machine
end

section
/-!
The family `44_transfer_procedures.md`: the end of an exchange.
-/
namespace Sys2Proof.Proofs
open Sys2Proof.Machine Sys2Proof.Claims

/-- Settles O54: at a code without a body the operation ends with the error that the code maps to; at DEVICE_ERROR it ends
with the body once that is read. -/
theorem errorCodesMapToHostErrors : Obligations.ErrorCodesMapToHostErrors := by
  refine ⟨fun s v kind e he => ?_, fun s kind body => failedWith_exchangeError kind _ s,
    fun s kind hc hb herr hfit htask => ?_⟩
  · have hfails (hnone : e.code ≠ ErrCode.none.code) (hdevice : e.code ≠ ErrCode.deviceError.code) :
        failedWith kind (errorOf e.code) s (statusRead kind v s) := by
      rw [statusRead_error he hnone hdevice]
      exact failedWith_exchangeError kind _ s
    refine ⟨?_, ?_, fun h => ?_, ?_, fun h => ?_⟩
    · rintro rfl
      rw [statusRead_body (de := false) he]
      exact ⟨rfl, rfl, rfl, rfl⟩
    · rintro rfl
      rw [statusRead_body (de := true) he]
      exact ⟨rfl, rfl, rfl, rfl⟩
    · simp only [List.mem_cons, List.not_mem_nil, or_false] at h
      obtain rfl | rfl | rfl | rfl := h
      all_goals exact hfails (by decide) (by decide)
    · rintro rfl
      exact hfails (by decide) (by decide)
    · simp only [List.mem_cons, List.not_mem_nil, or_false] at h
      obtain rfl | rfl | rfl | rfl := h
      all_goals exact hfails (by decide) (by decide)
  · have hview : s.view = ⟨s.cfg, s.blk, s.env, some ⟨kind, .readStatus⟩, s.host.useIrq⟩ := by
      rw [← htask]
      rfl
    obtain ⟨t, ht, u, hcfg, hblk, henv, rfl⟩ := runsTo_readStatus (de := true) hc hb herr hfit s hview
    obtain ⟨hnone, ⟨hblk', hcfg', henv'⟩, hresult⟩ :=
      failedWith_exchangeError kind (.deviceError (s.blk.rxFrom 5 s.blk.rxBodyLen.toNat)) u
    exact ⟨_, ht, hnone, ⟨hblk'.trans hblk, hcfg'.trans hcfg, henv'.trans henv⟩, hresult⟩

end Sys2Proof.Proofs
end

section
/-!
Laws of bytes written one after another from an address on.
-/
namespace Sys2Proof.Machine

/-- Bytes written from address `a` on, in order. -/
def Memory.fill : Memory → Nat → Bytes → Memory
  | m, _, [] => m
  | m, a, x :: rest => Memory.fill (Memory.put m a x) (a + 1) rest

/-- The same of the block. -/
def Block.fill (b : Block) (a : Nat) (bytes : Bytes) : Block := { b with mem := Memory.fill b.mem a bytes }

theorem Block.fill_cons (b : Block) (a : Nat) (x : Byte) (rest : Bytes) :
    b.fill a (x :: rest) = (b.poke a x).fill (a + 1) rest := rfl

theorem Block.byte_fill_other (bytes : Bytes) : ∀ (b : Block) {a a' : Nat}, a' < a ∨ a + bytes.length ≤ a' →
    (b.fill a bytes).byte a' = b.byte a' := by
  induction bytes with
  | nil => exact fun b _ _ _ => rfl
  | cons x rest ih =>
    intro b a a' h
    simp only [List.length_cons] at h
    rw [Block.fill_cons, ih _ (by omega), Block.byte_poke_other b x (by omega)]

theorem Block.byte_fill (bytes : Bytes) : ∀ (b : Block) (a : Nat) {k : Nat} (h : k < bytes.length),
    (b.fill a bytes).byte (a + k) = bytes[k] := by
  induction bytes with
  | nil => exact fun _ _ _ h => absurd h (Nat.not_lt_zero _)
  | cons x rest ih =>
    intro b a k h
    rw [Block.fill_cons]
    cases k with
    | zero => rw [Block.byte_fill_other rest _ (.inl (by omega)), Nat.add_zero, Block.byte_poke_same, List.getElem_cons_zero]
    | succ k =>
      rw [← Nat.add_assoc, Nat.add_right_comm, ih (b.poke a x) (a + 1) (Nat.lt_of_succ_lt_succ h), List.getElem_cons_succ]

/-- What was written from the start of a buffer is what the buffer holds there. -/
theorem txFrom_fill (b : Block) (bytes : Bytes) : (b.fill txBase bytes).txFrom 0 bytes.length = bytes := by
  refine List.ext_getElem (by simp) fun k _ hk => ?_
  simpa [Block.txFrom, Block.txByte] using Block.byte_fill bytes b txBase hk

theorem rxFrom_fill (b : Block) (bytes : Bytes) : (b.fill rxBase bytes).rxFrom 0 bytes.length = bytes := by
  refine List.ext_getElem (by simp) fun k _ hk => ?_
  simpa [Block.rxFrom, Block.rxByte] using Block.byte_fill bytes b rxBase hk

end Sys2Proof.Machine
end

section
/-!
Laws of the engine's run: the transmission of a frame, the bytes of the response, and the silence that completes the
exchange.
-/
namespace Sys2Proof.Machine
open Sys2Proof.Claims

section Engine
variable {c : Config} {b : Block} {env : Environment} {task : Option Task} {irq : Bool}

/-! ### The transmission (R222) -/

/-- The environment once more bytes have been sent. -/
def Environment.sent (env : Environment) (bytes : Bytes) : Environment := { env with lineOut := env.lineOut ++ bytes }

theorem Environment.sent_cons (env : Environment) (x : Byte) (rest : Bytes) :
    env.sent (x :: rest) = (env.sent [x]).sent rest := by
  simp [Environment.sent]

/-- The block once its whole frame has been sent. -/
def Block.transmitted (b : Block) : Block := { b with
  txi := b.txFrameLen.toNat, txLine := true, engState := .awaitingResponse, idleTimer := .running }

theorem Block.transmit_last (h : b.txi + 1 = b.txFrameLen.toNat) : b.transmit = b.transmitted := by
  simp only [Block.transmit, Block.transmitted, uartChar_stop, h, if_true]

theorem Block.transmit_more (h : b.txi + 1 ≠ b.txFrameLen.toNat) :
    b.transmit = { b with txi := b.txi + 1, txLine := true } := by
  simp only [Block.transmit, uartChar_stop, h, if_false]

theorem runs_engineTx (h : b.canTransmit = true) :
    Runs [.engineTx] ⟨c, b, env, task, irq⟩ ⟨c, b.transmit, env.sent [b.txByte b.txi], task, irq⟩ := by
  refine runsTo_single fun s hs => ?_
  simp only [State.view, View.mk.injEq] at hs
  obtain ⟨rfl, rfl, rfl, rfl, rfl⟩ := hs
  refine ⟨_, congrArg Host.Outcome.next (engineTx_of_canTransmit h), rfl⟩

/-- The transmit steps for the last `k + 1` bytes of the frame. -/
theorem runs_transmit (k : Nat) : ∀ {b : Block} {env : Environment}, b.engState = .frameSent →
    b.txi + (k + 1) = b.txFrameLen.toNat →
    Runs (List.replicate (k + 1) .engineTx) ⟨c, b, env, task, irq⟩
      ⟨c, b.transmitted, env.sent (b.txFrom b.txi (k + 1)), task, irq⟩ := by
  induction k with
  | zero =>
    intro b env hsend hlen
    rw [← Block.transmit_last hlen]
    simpa [Block.txFrom] using runs_engineTx (canTransmit_iff.2 ⟨hsend, by omega⟩)
  | succ k ih =>
    intro b env hsend hlen
    have hfirst := runs_engineTx (c := c) (env := env) (task := task) (irq := irq)
      (canTransmit_iff.2 ⟨hsend, show b.txi < b.txFrameLen.toNat by omega⟩)
    rw [Block.transmit_more (by omega)] at hfirst
    rw [List.replicate_succ, txFrom_cons, Environment.sent_cons]
    refine hfirst.cons ?_
    exact ih (b := { b with txi := b.txi + 1, txLine := true }) hsend (by show b.txi + 1 + (k + 1) = b.txFrameLen.toNat; omega)

/-! ### The response (R227) -/

/-- A host with this task is not in its own read loop (R281). -/
def NotCollecting (task : Option Task) : Prop := ∀ h : HostAgent, h.task = task → h.collecting = none

theorem notCollecting_of_collecting {h : HostAgent} (hnone : h.collecting = none) : NotCollecting h.task :=
  fun h' htask => by rw [← hnone, HostAgent.collecting, HostAgent.collecting, htask]

/-- The block once the bytes have been stored after those it had. -/
def Block.stored (b : Block) (bytes : Bytes) : Block :=
  { b.fill (rxBase + b.rxn) bytes with rxn := b.rxn + bytes.length }

theorem runs_lineBytes (htask : NotCollecting task) (bytes : Bytes) : ∀ {b : Block}, b.capturing = true →
    b.idleTimer = .running → b.rxn + bytes.length ≤ c.rxbufSize →
    Runs (bytes.map .lineByte) ⟨c, b, env, task, irq⟩ ⟨c, b.stored bytes, env, task, irq⟩ := by
  induction bytes with
  | nil => exact fun _ _ _ => runs_nil _
  | cons x rest ih =>
    intro b hcap htimer hfit
    simp only [List.length_cons] at hfit
    have hstore : Runs [.lineByte x] ⟨c, b, env, task, irq⟩ ⟨c, b.stored [x], env, task, irq⟩ := by
      refine runsTo_single fun s hs => ?_
      simp only [State.view, View.mk.injEq] at hs
      obtain ⟨rfl, rfl, rfl, rfl, rfl⟩ := hs
      refine ⟨_, congrArg Host.Outcome.next
        ((lineByte_of_not_collecting (htask _ rfl) x).trans (receive_of_capturing hcap x)), ?_⟩
      rw [Block.receive_of_room (by omega), ← htimer]
      rfl
    have hrest := ih (b := b.stored [x]) hcap htimer (by simp only [Block.stored, List.length_singleton]; omega)
    have hblk : (b.stored [x]).stored rest = b.stored (x :: rest) := by
      simp only [Block.stored, List.length_cons, List.length_nil, Nat.zero_add, Nat.add_assoc, Nat.add_comm 1]
      rfl
    exact hstore.cons (hblk ▸ hrest)

/-! ### Silence (R228) -/

theorem runs_lineIdle (htask : NotCollecting task) (hcap : b.capturing = true) (hawait : b.engState = .awaitingResponse) :
    Runs [.lineIdle] ⟨c, b, env, task, irq⟩ ⟨c, finishExchange c b, env, task, irq⟩ := by
  refine runsTo_single fun s hs => ?_
  simp only [State.view, View.mk.injEq] at hs
  obtain ⟨rfl, rfl, rfl, rfl, rfl⟩ := hs
  exact ⟨_, congrArg Host.Outcome.next
    ((lineQuiet_of_not_collecting (htask _ rfl)).trans (lineIdle_completes hcap hawait)), rfl⟩

/-! ### The whole exchange -/

/-- The block when the whole response to its frame has arrived. -/
def Block.answered (b : Block) (response : Bytes) : Block := b.transmitted.stored response

/-- From the start of an exchange: the frame goes out, the response comes in, and the exchange completes. -/
theorem runs_exchange (htask : NotCollecting task) (hsend : b.engState = .frameSent) (htxi : b.txi = 0) {n : Nat}
    (hlen : b.txFrameLen.toNat = n + 1) (hcap : b.capturing = true) (hrxn : b.rxn = 0) {response : Bytes}
    (hfit : response.length ≤ c.rxbufSize) :
    Runs (List.replicate (n + 1) .engineTx ++ deviceAnswers response) ⟨c, b, env, task, irq⟩
      ⟨c, finishExchange c (b.answered response), env.sent (b.txFrom 0 (n + 1)), task, irq⟩ := by
  have hsent := runs_transmit (c := c) (env := env) (task := task) (irq := irq) n hsend (by rw [htxi, hlen, Nat.zero_add])
  rw [htxi] at hsent
  refine hsent.append (RunsTo.append (runs_lineBytes htask response (b := b.transmitted) hcap rfl ?_) ?_)
  · show b.rxn + response.length ≤ c.rxbufSize
    omega
  · exact runs_lineIdle htask hcap rfl

/-! ### What a completed exchange leaves (R229, R230) -/

theorem Block.stored_of_empty (h : b.rxn = 0) (bytes : Bytes) :
    b.stored bytes = { b.fill rxBase bytes with rxn := bytes.length } := by
  simp only [Block.stored, h, Nat.add_zero, Nat.zero_add]

/-- `b'` is a block in which PARSE has judged `response`. -/
structure Block.Parsed (c : Config) (response : Bytes) (b' : Block) : Prop where
  done : b'.done = true
  rxLen : b'.rxLen.toNat = response.length
  rxBytes : b'.rxFrom 0 response.length = response
  err : b'.err = parseCode c b'
  bodyLen : b'.err.extracts = true → b'.rxBodyLen.toNat = response.length - 10
  reserved : b'.err.extracts = true → b'.rxReserved = b'.rxByte 4

/-- BUSY and ENG_STATE do not matter to it. -/
theorem Block.Parsed.withState {response : Bytes} (h : b.Parsed c response) (busy : Bool) (st : EngState) :
    Block.Parsed c response { b with busy := busy, engState := st } :=
  ⟨h.done, h.rxLen, h.rxBytes, h.err, h.bodyLen, h.reserved⟩

/-- PARSE of a block that holds a response which fits RXBUF (R190). -/
theorem parse_parsed (hc : c.Legal) {response : Bytes} (hfit : response.length ≤ c.rxbufSize)
    (hlen : b.rxLen = BitVec.ofNat 32 response.length) (hbytes : b.rxFrom 0 response.length = response) :
    Block.Parsed c response (parse c b) := by
  obtain ⟨_, _, _, hmax, _⟩ := hc
  have hlen' : b.rxLen.toNat = response.length := by
    rw [hlen, BitVec.toNat_ofNat]
    omega
  by_cases hext : (parseCode c b).extracts = true
  · rw [parse_extracts hext]
    refine ⟨rfl, hlen', hbytes, rfl, fun _ => ?_, fun _ => rfl⟩
    rw [Block.complete_rxBodyLen, Block.extract_rxBodyLen, BitVec.toNat_ofNat, hlen']
    omega
  · rw [parse_clears hext]
    exact ⟨rfl, hlen', hbytes, rfl, (absurd · hext), (absurd · hext)⟩

/-- A whole response is parsed when its exchange completes (R230). -/
theorem finishExchange_parsed (hc : c.Legal) {response : Bytes} (hne : response ≠ [])
    (hfit : response.length ≤ c.rxbufSize) (hrxn : b.rxn = response.length) (hovf : b.ovf = false)
    (hbytes : b.rxFrom 0 response.length = response) : Block.Parsed c response (finishExchange c b) := by
  have hstored : b.rxn ≠ 0 := hrxn ▸ List.length_eq_zero_iff.not.2 hne
  rw [finishExchange_parses (exchangeCode_parse (b := b.stopCapture) hstored hovf)]
  exact (parse_parsed (b := b.stopCapture) hc hfit (congrArg (BitVec.ofNat 32) hrxn) hbytes).withState _ _

theorem finishExchange_answered (hc : c.Legal) (hrxn : b.rxn = 0) (hovf : b.ovf = false) {response : Bytes}
    (hne : response ≠ []) (hfit : response.length ≤ c.rxbufSize) :
    Block.Parsed c response (finishExchange c (b.answered response)) := by
  rw [Block.answered, Block.stored_of_empty (b := b.transmitted) hrxn]
  exact finishExchange_parsed hc hne hfit rfl hovf (rxFrom_fill b.transmitted response)

end Engine

/-- A response of status 0 is one that PARSE accepts (R201). -/
theorem Block.Parsed.of_wrap {c : Config} {b : Block} {reserved t0 t1 : Byte} {body : Bytes}
    (h : b.Parsed c (wrap 0x00 reserved body t0 t1)) (hfit : body.length + 10 ≤ c.rxbufSize) :
    b.err = .none ∧ b.rxBodyLen.toNat = body.length ∧ b.rxFrom 5 body.length = body := by
  have hlength : (wrap 0x00 reserved body t0 t1).length = body.length + 10 := by
    simp [wrap, header, footer]
  obtain ⟨_, hlen, hbytes, herr, hbodyLen, _⟩ := h
  rw [hlength] at hlen hbytes hbodyLen
  obtain ⟨hheader, hstatus, _, hbody, _, _, hfooter⟩ := Block.holdsWrapped hbytes
  have hnone : b.err = .none := by
    rw [herr, parseCode_wellFormed (by omega) (by omega) hheader (by rwa [hlen]), if_pos hstatus]
  exact ⟨hnone, by rw [hbodyLen (by rw [hnone]; rfl)]; omega, hbody⟩

/-! ### An exchange without an end (R235) -/

/-- From `b` to `b'` an exchange goes on capturing, and BUSY, DONE and ENG_STATE are kept. -/
structure Block.KeepsCapturing (b b' : Block) : Prop where
  busy : b'.busy = b.busy
  capturing : b'.capturing = b.capturing
  done : b'.done = b.done
  engState : b'.engState = b.engState

theorem Block.KeepsCapturing.trans {b b' b'' : Block} (h : b.KeepsCapturing b') (h' : b'.KeepsCapturing b'') :
    b.KeepsCapturing b'' :=
  ⟨h'.busy.trans h.busy, h'.capturing.trans h.capturing, h'.done.trans h.done, h'.engState.trans h.engState⟩

theorem Block.keepsCapturing_receive (c : Config) (byte : Byte) (b : Block) : b.KeepsCapturing (b.receive c byte) := by
  unfold Block.receive
  split <;> exact ⟨rfl, rfl, rfl, rfl⟩

theorem sameProgram_collecting {s t : State} (h : sameProgram s t) : t.host.collecting = s.host.collecting := by
  rw [sameProgram] at h
  rw [h]
  rfl

end Sys2Proof.Machine
end

section
/-!
The family `43_engine.md`: whole exchanges.
-/
namespace Sys2Proof.Proofs
open Sys2Proof.Machine Sys2Proof.Claims

/-- Settles O28, by induction on the bytes: a byte keeps the exchange capturing, and a read of STATUS (O33) changes
nothing. -/
theorem exchangeCanRunForever : Obligations.ExchangeCanRunForever := by
  suffices hrun : ∀ (bytes : Bytes) (s : State), s.host.collecting = none → s.blk.capturing = true →
      Answers (play (bytes.flatMap fun b => [.lineByte b, .transaction (.bus (rd32 0x04))]) s) fun t =>
        s.blk.KeepsCapturing t.blk by
    intro s bytes hhost hbusy hcap
    obtain ⟨t, ht, hkeeps⟩ := hrun bytes s hhost hcap
    exact ⟨t, ht, hkeeps.busy.trans hbusy, hkeeps.done, hkeeps.engState⟩
  intro bytes
  induction bytes with
  | nil => exact fun s _ _ => ⟨s, rfl, rfl, rfl, rfl, rfl⟩
  | cons x rest ih =>
    intro s hhost hcap
    have hbyte : runEvent (.lineByte x) s = .next (s.setBlk (s.blk.receive s.cfg x)) :=
      congrArg Host.Outcome.next ((lineByte_of_not_collecting hhost x).trans (receive_of_capturing hcap x))
    have hreceive := Block.keepsCapturing_receive s.cfg x s.blk
    refine answers_play_cons ⟨_, hbyte, rfl⟩ fun u hu => ?_
    obtain ⟨v, hv, hblk, _, hprogram, _⟩ := readsHaveNoSideEffect u 4 0x04 0
    refine answers_play_cons ⟨v, hv, rfl⟩ fun w hw => ?_
    subst hw hu
    rw [State.setBlk_blk] at hblk
    obtain ⟨t, ht, hkeeps⟩ := ih v ((sameProgram_collecting hprogram).trans hhost)
      ((congrArg Block.capturing hblk).trans (hreceive.capturing.trans hcap))
    exact ⟨t, ht, hreceive.trans (hblk ▸ hkeeps)⟩

/-- Settles O29: XCHG makes the frame and starts the exchange, the engine sends it, and the response is parsed when the
line goes idle. -/
theorem exchangeSendsFrameAndParsesResponse : Obligations.ExchangeSendsFrameAndParsesResponse := by
  intro s ie response hc he hb hhost hpos hfit hne hresponse
  have hstart : runEvent (.transaction (encode (.xchg ie))) s =
      .next (s.wrote (accepted s ie).appendChecksum.startExchange) :=
    (runPacket_decode (decodeOfEncode (.xchg ie) rfl) s).trans (exec_xchg_success hb he ⟨hpos, hfit⟩ ie)
  have hlen : (accepted s ie).appendChecksum.txFrameLen.toNat = s.blk.txLen.toNat + 2 :=
    appendChecksum_txFrameLen_toNat (b := accepted s ie) hc hfit
  have hframe := txFrom_appendChecksum_encodeFrame (b := accepted s ie) hpos
  have hrun := runs_exchange (c := s.cfg) (b := (accepted s ie).appendChecksum.startExchange) (env := s.env)
    (irq := s.host.useIrq) (notCollecting_of_collecting hhost) rfl rfl hlen rfl rfl hresponse
  refine answers_play_cons ⟨_, hstart, rfl⟩ fun u hu => ?_
  obtain ⟨t, ht, hview⟩ := hrun u (hu ▸ rfl)
  have hline : t.env.lineOut = _ := congrArg (·.env.lineOut) hview
  have hblk : t.blk = _ := congrArg View.blk hview
  have hparsed : t.blk.Parsed s.cfg response := hblk ▸ finishExchange_answered hc rfl rfl hne hresponse
  have hbusy : t.blk.busy = false := hblk ▸ rfl
  have hstate : t.blk.engState = if t.blk.err = .none then .decoded else .failed := hblk ▸ rfl
  obtain ⟨hdone, hrxLen, hbytes, herr, hbodyLen, hreserved⟩ := hparsed
  refine ⟨t, ht, hline.trans (congrArg (s.env.lineOut ++ ·) hframe), hbusy, hdone, hrxLen, hbytes, herr, ?_, ?_,
    fun hnone => ?_⟩
  · by_cases hnone : t.blk.err = .none <;> simp [hstate, hnone]
  · by_cases hnone : t.blk.err = .none <;> simp [hstate, hnone]
  · have hext := congrArg ErrCode.extracts hnone
    exact ⟨hbodyLen hext, hreserved hext⟩

end Sys2Proof.Proofs
end

section
/-!
Laws of an exchange's writes: what the block holds once the host has written a payload or a response into it, and the
frame that it makes of the payload.
-/
namespace Sys2Proof.Machine
open Sys2Proof.Claims

section Writes
variable {c : Config} {b : Block}

/-- The host's byte writes put the bytes where they belong, as far as the buffer reaches. -/
theorem wrbytes_writesAll (hc : c.Legal) {base size : Nat} (hw : bufferWindow c base size) (bytes : Bytes) :
    ∀ {b : Block} {i : Nat}, b.busy = false → i + bytes.length ≤ size →
      b.WritesAll c (wrbytes (base + i) bytes) (b.fill (base + i) bytes) := by
  induction bytes with
  | nil => exact fun _ _ => rfl
  | cons x rest ih =>
    intro b i hb hfit
    simp only [List.length_cons] at hfit
    refine ⟨b.poke (base + i) x, ?_, ih (b := b.poke (base + i) x) (i := i + 1) hb (by omega)⟩
    rintro s rfl rfl
    rw [wr8, busAccess_write_buffer hc hw (by omega), if_pos (.inl rfl), if_neg (by simp [hb]), Block.store, if_pos rfl,
      Proofs.lane_setWidth]

theorem wr32_txLen_writes (hb : b.busy = false) (v : Word) : b.Writes c (wr32 0x1C v) { b with txLen := v } := by
  rintro s rfl rfl
  exact (busAccess_wr32 (by decide) (by decide) (by decide) (by decide) v s).trans
    (congrArg Host.Outcome.next (unlessBusy_free hb _ _))

theorem wr32_rxLen_writes (hb : b.busy = false) (v : Word) : b.Writes c (wr32 0x24 v) { b with rxLen := v } := by
  rintro s rfl rfl
  exact (busAccess_wr32 (by decide) (by decide) (by decide) (by decide) v s).trans
    (congrArg Host.Outcome.next (unlessBusy_free hb _ _))

theorem clrdone_writes : b.Writes c clrdone (b.writeStatus 0x6) := by
  rintro s rfl rfl
  exact busAccess_wr32 (by decide) (by decide) (by decide) (by decide) 0x6 s

/-- A command that the host issues runs on the idle block (R35, R142). -/
theorem command_writes (hb : b.busy = false) (ie : Bool) {code : BitVec 4} (hcode : code ≠ 0x0#4) :
    b.Writes c (wr32 ctrlOffset (ctrlValue ie code)) (commandBody code.toNat c { b with ie := ie, done := false }) := by
  rintro s rfl rfl
  have hcmd : (ctrlValue ie code).extractLsb' 0 4 = code := Proofs.ctrlValue_cmd ie code
  have hie : (ctrlValue ie code).getLsbD 8 = ie := Proofs.ctrlValue_ie ie code
  rw [wr32, ctrlOffset, busAccess_ctrl, exec_decodeCtrl_command (by rwa [hcmd]), hcmd, hie, issue_free hb]

/-! ### The frame of a payload (R169, R172) -/

/-- The block once an opcode and a payload have been written, with their number. -/
def Block.loaded (b : Block) (op : Byte) (payload : Bytes) : Block :=
  { b.fill txBase (op :: payload) with txLen := lengthWord (1 + payload.length) }

theorem loaded_writesAll (hc : c.Legal) (hb : b.busy = false) (op : Byte) {payload : Bytes}
    (hfit : payload.length + 3 ≤ c.txbufSize) :
    b.WritesAll c (wrbytes txBase (op :: payload) ++ [wr32 0x1C (lengthWord (1 + payload.length))])
      (b.loaded op payload) := by
  refine (wrbytes_writesAll hc (.inl ⟨rfl, rfl⟩) (i := 0) (op :: payload) hb ?_).append
    ⟨_, wr32_txLen_writes (b := b.fill txBase (op :: payload)) hb _, rfl⟩
  simp only [List.length_cons]
  omega

theorem loaded_txLen (hc : c.Legal) (b : Block) (op : Byte) {payload : Bytes} (hfit : payload.length + 3 ≤ c.txbufSize) :
    (b.loaded op payload).txLen.toNat = payload.length + 1 := by
  obtain ⟨_, hmax, _⟩ := hc
  show (lengthWord (1 + payload.length)).toNat = _
  rw [lengthWord_toNat]
  omega

/-- BUILD of a block that holds `op` and `payload` makes their frame. -/
theorem txFrom_appendChecksum_of_payload {op : Byte} {payload : Bytes} (hlen : b.txLen.toNat = payload.length + 1)
    (h : b.txFrom 0 (payload.length + 1) = op :: payload) :
    b.appendChecksum.txFrom 0 (payload.length + 3) = encodeFrame op payload := by
  have hframe := txFrom_appendChecksum b
  rw [Block.txChecksum, txBytes_eq, hlen, h] at hframe
  exact hframe

theorem loaded_txFrom (b : Block) (op : Byte) (payload : Bytes) :
    (b.loaded op payload).txFrom 0 (payload.length + 1) = op :: payload := txFrom_fill b (op :: payload)

/-! ### With the engine (R265) -/

/-- The block that an Exchange's writes leave: its exchange is running. -/
def Block.exchanged (b : Block) (irq : Bool) (op : Byte) (payload : Bytes) : Block :=
  Block.startExchange (Block.appendChecksum { (b.loaded op payload).writeStatus 0x6 with ie := irq, done := false })

theorem exchangeWrites_writesAll (hc : c.Legal) (he : c.enginePresent = true) (hb : b.busy = false) (irq : Bool)
    (op : Byte) {payload : Bytes} (hfit : payload.length + 3 ≤ c.txbufSize) :
    b.WritesAll c (exchangeWrites c irq op payload) (b.exchanged irq op payload) := by
  have hlen := loaded_txLen hc b op hfit
  have hok : txLengthOk c { (b.loaded op payload).writeStatus 0x6 with ie := irq, done := false } = true := by
    refine txLengthOk_iff.2 ?_
    simp only [Block.writeStatus_txLen, hlen]
    omega
  have hxchg : (b.loaded op payload).WritesAll c [clrdone, wr32 ctrlOffset (ctrlValue irq 0x5)]
      (b.exchanged irq op payload) := by
    refine ⟨_, clrdone_writes, _, command_writes (code := 0x5) ?_ irq (by decide), ?_⟩
    · exact hb
    · exact (xchg_engine he _).trans (if_pos hok)
  have hlist : exchangeWrites c irq op payload =
      (wrbytes txBase (op :: payload) ++ [wr32 0x1C (lengthWord (1 + payload.length))]) ++
        [clrdone, wr32 ctrlOffset (ctrlValue irq 0x5)] := by
    rw [exchangeWrites, if_pos he, List.append_assoc]
    cases irq <;> rfl
  exact hlist ▸ (loaded_writesAll hc hb op hfit).append hxchg

/-! ### Without the engine (R281) -/

/-- The block that the writes leave there: BUILD has made the frame. -/
def Block.built (b : Block) (op : Byte) (payload : Bytes) : Block :=
  (Block.appendChecksum { b.loaded op payload with ie := false, done := false }).complete .none

theorem exchangeWrites_noEngine_writesAll (hc : c.Legal) (he : c.enginePresent = false) (hb : b.busy = false)
    (irq : Bool) (op : Byte) {payload : Bytes} (hfit : payload.length + 3 ≤ c.txbufSize) :
    b.WritesAll c (exchangeWrites c irq op payload) (b.built op payload) := by
  have hlen := loaded_txLen hc b op hfit
  have hok : txLengthOk c { b.loaded op payload with ie := false, done := false } = true := by
    refine txLengthOk_iff.2 ?_
    simp only [hlen]
    omega
  have hbuild : (b.loaded op payload).WritesAll c [cmd 0x2] (b.built op payload) := by
    refine ⟨_, command_writes (code := 0x2) ?_ false (by decide), if_pos hok⟩
    exact hb
  have hlist : exchangeWrites c irq op payload =
      (wrbytes txBase (op :: payload) ++ [wr32 0x1C (lengthWord (1 + payload.length))]) ++ [cmd 0x2] := by
    rw [exchangeWrites, if_neg (by simp [he]), List.append_assoc]
    rfl
  exact hlist ▸ (loaded_writesAll hc hb op hfit).append hbuild

/-- The block that the host's load of a response leaves, PARSE included. -/
def Block.judged (c : Config) (b : Block) (response : Bytes) : Block :=
  parse c { b.fill rxBase response with rxLen := lengthWord response.length, ie := false, done := false }

theorem loadResponse_writesAll (hc : c.Legal) (hb : b.busy = false) {response : Bytes}
    (hfit : response.length ≤ c.rxbufSize) : b.WritesAll c (loadResponse response) (b.judged c response) := by
  refine (wrbytes_writesAll hc (.inr ⟨rfl, rfl⟩) (i := 0) response hb (by omega)).append ?_
  refine ⟨_, wr32_rxLen_writes (b := b.fill rxBase response) hb _, _, command_writes (code := 0x3) ?_ false (by decide),
    rfl⟩
  exact hb

end Writes

end Sys2Proof.Machine
end

section
/-!
Laws of whole exchanges: from the host's first write to the body it has read, with the engine (R265) and without it (R281).
-/
namespace Sys2Proof.Machine
open Sys2Proof.Claims

@[simp] theorem wrbytes_length (bytes : Bytes) : ∀ off : Nat, (wrbytes off bytes).length = bytes.length := by
  induction bytes with
  | nil => exact fun _ => rfl
  | cons x rest ih => exact fun off => congrArg (· + 1) (ih (off + 1))

theorem wrap_length (status reserved t0 t1 : Byte) (body : Bytes) :
    (wrap status reserved body t0 t1).length = body.length + 10 := by
  simp [wrap, header, footer]

section Whole
variable {c : Config} {b : Block} {env : Environment} {kind : TaskKind} {irq : Bool}

/-- The body of a response of status 0, read from STATUS on. -/
theorem runsTo_readOk (hc : c.Legal) (hb : b.busy = false) {reserved t0 t1 : Byte} {body : Bytes}
    (hparsed : b.Parsed c (wrap 0x00 reserved body t0 t1)) (hfit : body.length + 10 ≤ c.rxbufSize) :
    b.err = .none ∧ RunsTo (List.replicate (body.length + 2) .hostTurn) ⟨c, b, env, some ⟨kind, .readStatus⟩, irq⟩
      (HasRead c b env kind false body) := by
  obtain ⟨herr, hlen, hbody⟩ := hparsed.of_wrap hfit
  have hread := runsTo_readStatus (env := env) (kind := kind) (irq := irq) hc hb (de := false) herr (by omega)
  rw [hlen, hbody] at hread
  exact ⟨herr, hread⟩

/-! ### With the engine (R265) -/

/-- How the host waits for its exchange to end. -/
def waitPhase (irq : Bool) : Phase := if irq then .awaitIrq else .pollBusy

theorem exchangeStart_engine (he : c.enginePresent = true) (irq : Bool) (op : Byte) (payload : Bytes) :
    ∃ next : AfterWrites, next.phase = waitPhase irq ∧
      exchangeStart c irq op payload = .issue (exchangeWrites c irq op payload) next := by
  refine ⟨if irq then .awaitIrq else .pollBusy, ?_, by rw [exchangeStart, if_pos he]⟩
  cases irq <;> rfl

theorem exchangeWrites_length (he : c.enginePresent = true) (irq : Bool) (op : Byte) (payload : Bytes) :
    (exchangeWrites c irq op payload).length = payload.length + 4 := by
  simp [exchangeWrites, he]

theorem notCollecting_wait : NotCollecting (some ⟨kind, waitPhase irq⟩) := by
  intro h htask
  cases irq <;> simp [HostAgent.collecting, htask, waitPhase]

/-- The host's look at a completed exchange: STATUS says that it is not BUSY, or irq is up. -/
theorem runs_wait (hb : b.busy = false) (hdone : b.done = true) (hie : b.ie = irq) :
    Runs [.hostTurn] ⟨c, b, env, some ⟨kind, waitPhase irq⟩, irq⟩ ⟨c, b, env, some ⟨kind, .readStatus⟩, irq⟩ := by
  cases irq with
  | false =>
    refine runsTo_read (phase := .pollBusy) (fun _ => rfl) (csr_reads hb (off := 0x04) (by decide) (by decide))
      fun s hs => ?_
    have hbit : (csrValue c b 0x04).getLsbD 0 = false := (statusWith_flags _ _ _ _).1.trans hb
    rw [if_neg (Bool.not_eq_true _ ▸ hbit)]
    exact view_setTask hs _
  | true =>
    refine runsTo_hostTurn (phase := .awaitIrq) fun s hs _ hblk => ?_
    have hirq : s.irq = true := by rw [State.irq, hblk, hie, hdone]; rfl
    exact ⟨_, congrArg Host.Outcome.next (if_pos hirq), view_setTask hs _⟩

/-- What the XCHG of a host's exchange leaves to send. -/
theorem exchanged_frame (hc : c.Legal) (irq : Bool) (op : Byte) {payload : Bytes}
    (hfit : payload.length + 3 ≤ c.txbufSize) :
    (b.exchanged irq op payload).txFrameLen.toNat = payload.length + 3 ∧
      (b.exchanged irq op payload).txFrom 0 (payload.length + 3) = encodeFrame op payload := by
  have hlen := loaded_txLen hc b op hfit
  refine ⟨?_, txFrom_appendChecksum_of_payload (b := { (b.loaded op payload).writeStatus 0x6 with
    ie := irq, done := false }) hlen (loaded_txFrom b op payload)⟩
  exact (appendChecksum_txFrameLen_toNat (b := b.loaded op payload) hc (by omega)).trans (by omega)

/-- In `t` the exchange has ended with Ok(`body`), and the line has carried `sent` since `env`. -/
def EndsOk (env : Environment) (irq : Bool) (kind : TaskKind) (sent body : Bytes) (t : State) : Prop :=
  ∃ u : State, t = exchangeOk kind body u ∧ u.env = env.sent sent ∧ u.blk.busy = false ∧ u.blk.err = .none ∧
    u.blk.ie = irq

/-- The parts of the run: the host's writes, the exchange, the look at its end, and the reads. -/
theorem exchangeEvents_eq (payload response body : Bytes) :
    exchangeEvents payload response body =
      List.replicate (payload.length + 4) .hostTurn ++ ((List.replicate (payload.length + 3) .engineTx ++
        deviceAnswers response) ++ .hostTurn :: List.replicate (body.length + 2) .hostTurn) := by
  simp only [exchangeEvents, List.append_assoc, List.replicate_succ]

/-- From the host's first access to the body. -/
theorem runsTo_exchangeEvents (hc : c.Legal) (he : c.enginePresent = true) (hb : b.busy = false) (op : Byte)
    {payload body : Bytes} (reserved t0 t1 : Byte) (hpayload : payload.length + 3 ≤ c.txbufSize)
    (hbody : body.length + 10 ≤ c.rxbufSize) :
    RunsTo (exchangeEvents payload (wrap 0x00 reserved body t0 t1) body)
      ⟨c, b, env, some ⟨kind, exchangeStart c irq op payload⟩, irq⟩
      (EndsOk env irq kind (encodeFrame op payload) body) := by
  obtain ⟨next, hnext, hstart⟩ := exchangeStart_engine he irq op payload
  have hwlen := exchangeWrites_length he irq op payload
  have hrlen := wrap_length 0x00 reserved t0 t1 body
  have hwrites := runs_writes (env := env) (kind := kind) (irq := irq) (next := next)
    (List.ne_nil_of_length_eq_add_one hwlen) (exchangeWrites_writesAll hc he hb irq op hpayload)
  obtain ⟨hlen, hframe⟩ := exchanged_frame (b := b) hc irq op hpayload
  have hexchange := runs_exchange (env := env) (irq := irq) (b := b.exchanged irq op payload)
    (notCollecting_wait (kind := kind) (irq := irq)) rfl rfl hlen rfl rfl (hrlen.trans_le hbody)
  rw [hframe] at hexchange
  have hparsed := finishExchange_answered (b := b.exchanged irq op payload) hc rfl rfl
    (List.ne_nil_of_length_eq_add_one hrlen) (hrlen.trans_le hbody)
  have hie : (finishExchange c ((b.exchanged irq op payload).answered (wrap 0x00 reserved body t0 t1))).ie = irq :=
    (finishExchange_completes c _).ie
  obtain ⟨herr, hread⟩ := runsTo_readOk (env := env.sent (encodeFrame op payload)) (kind := kind) (irq := irq) hc rfl
    hparsed hbody
  rw [exchangeEvents_eq, hstart, ← hwlen]
  rw [hnext] at hwrites
  refine hwrites.append (hexchange.append ((runs_wait rfl rfl hie).cons (hread.mono ?_)))
  rintro t ⟨u, -, hblk, henv, rfl⟩
  exact ⟨u, rfl, henv, by rw [hblk]; rfl, by rw [hblk]; exact herr, by rw [hblk]; exact hie⟩

/-! ### Without the engine (R281) -/

/-- BUILD ended with NONE: the host goes on to TX_FRAME_LEN. -/
theorem runs_checkBuild (hb : b.busy = false) (herr : b.err = .none) :
    Runs [.hostTurn] ⟨c, b, env, some ⟨kind, .checkBuild⟩, irq⟩ ⟨c, b, env, some ⟨kind, .readFrameLen⟩, irq⟩ := by
  refine runsTo_read (fun _ => rfl) (csr_reads hb (off := 0x04) (by decide) (by decide)) fun s hs => ?_
  have hcode : (csrValue c b 0x04).extractLsb' 4 4 = ErrCode.none.code := herr ▸ statusWith_err _ _ _ _
  rw [if_pos hcode]
  exact view_setTask hs _

theorem runs_readFrameLen (hb : b.busy = false) {n : Nat} (hlen : b.txFrameLen.toNat = n + 1) :
    Runs [.hostTurn] ⟨c, b, env, some ⟨kind, .readFrameLen⟩, irq⟩
      ⟨c, b, env, some ⟨kind, .readFrame (n + 1) 0⟩, irq⟩ := by
  have hread : b.Reads c (rd32 0x20) b.txFrameLen := csr_reads hb (by decide) (by decide)
  refine runsTo_read (fun _ => rfl) hread fun s hs => ?_
  have hne : b.txFrameLen ≠ 0 := fun h => by simp [h] at hlen
  rw [if_neg hne, hlen]
  exact view_setTask hs _

theorem view_send {s : State} {t : Option Task} (h : s.view = ⟨c, b, env, t, irq⟩) (bytes : Bytes) :
    (s.send bytes).view = ⟨c, b, env.sent bytes, t, irq⟩ := by
  simp only [State.view, View.mk.injEq] at h
  obtain ⟨rfl, rfl, rfl, rfl, rfl⟩ := h
  rfl

/-- The turn that reads a byte of the frame and sends it. -/
theorem runs_readFrame_one (hc : c.Legal) (hb : b.busy = false) {i len : Nat} (hi : i < c.txbufSize) :
    Runs [.hostTurn] ⟨c, b, env, some ⟨kind, .readFrame len i⟩, irq⟩
      ⟨c, b, env.sent [b.txByte i], some ⟨kind, if i + 1 < len then .readFrame len (i + 1) else .collect []⟩, irq⟩ := by
  refine runsTo_read (fun _ => rfl) (txByte_reads hc hb hi) fun s hs => ?_
  rw [Proofs.lane_setWidth]
  exact view_setTask (view_send hs _) _

/-- The turns that send the last `k + 1` bytes of the frame. -/
theorem runs_readFrame (hc : c.Legal) (hb : b.busy = false) (k : Nat) : ∀ {i len : Nat} {env : Environment},
    i + (k + 1) = len → len ≤ c.txbufSize →
    Runs (List.replicate (k + 1) .hostTurn) ⟨c, b, env, some ⟨kind, .readFrame len i⟩, irq⟩
      ⟨c, b, env.sent (b.txFrom i (k + 1)), some ⟨kind, .collect []⟩, irq⟩ := by
  induction k with
  | zero =>
    intro i len env hlen hfit
    have hlast := runs_readFrame_one (env := env) (kind := kind) (irq := irq) (len := len) hc hb (i := i) (by omega)
    rw [if_neg (by omega)] at hlast
    simpa [Block.txFrom] using hlast
  | succ k ih =>
    intro i len env hlen hfit
    have hfirst := runs_readFrame_one (env := env) (kind := kind) (irq := irq) (len := len) hc hb (i := i) (by omega)
    rw [if_pos (by omega)] at hfirst
    rw [List.replicate_succ, txFrom_cons, Environment.sent_cons]
    exact hfirst.cons (ih (by omega) hfit)

/-- The host's own read loop collects what arrives. -/
theorem runs_collect (bytes : Bytes) : ∀ {got : Bytes},
    Runs (bytes.map .lineByte) ⟨c, b, env, some ⟨kind, .collect got⟩, irq⟩
      ⟨c, b, env, some ⟨kind, .collect (got ++ bytes)⟩, irq⟩ := by
  induction bytes with
  | nil =>
    intro got
    rw [List.append_nil]
    exact runs_nil _
  | cons x rest ih =>
    intro got
    have hbyte : Runs [.lineByte x] ⟨c, b, env, some ⟨kind, .collect got⟩, irq⟩
        ⟨c, b, env, some ⟨kind, .collect (got ++ [x])⟩, irq⟩ := by
      refine runsTo_single fun s hs => ⟨_, congrArg Host.Outcome.next ?_, view_setTask hs _⟩
      have htask : s.host.task = some ⟨kind, .collect got⟩ := congrArg View.task hs
      rw [lineByte, HostAgent.collecting, htask]
    rw [List.append_cons]
    exact hbyte.cons ih

/-- Silence ends the read loop, and the host loads what it has. -/
theorem runs_collected {got : Bytes} (hne : got ≠ []) :
    Runs [.lineIdle] ⟨c, b, env, some ⟨kind, .collect got⟩, irq⟩
      ⟨c, b, env, some ⟨kind, .issue (loadResponse got) .readStatus⟩, irq⟩ := by
  refine runsTo_single fun s hs => ⟨_, congrArg Host.Outcome.next ?_, view_setTask hs _⟩
  have htask : s.host.task = some ⟨kind, .collect got⟩ := congrArg View.task hs
  rw [lineQuiet, HostAgent.collecting, htask]
  cases got with
  | nil => exact absurd rfl hne
  | cons x rest => rfl

theorem exchangeWrites_length_noEngine (he : c.enginePresent = false) (irq : Bool) (op : Byte) (payload : Bytes) :
    (exchangeWrites c irq op payload).length = payload.length + 3 := by
  simp [exchangeWrites, he]

theorem loadResponse_length (got : Bytes) : (loadResponse got).length = got.length + 2 := by
  simp [loadResponse]

/-- The frame that BUILD made of the host's writes. -/
theorem built_frame (hc : c.Legal) (op : Byte) {payload : Bytes} (hfit : payload.length + 3 ≤ c.txbufSize) :
    (b.built op payload).txFrameLen.toNat = payload.length + 3 ∧
      (b.built op payload).txFrom 0 (payload.length + 3) = encodeFrame op payload := by
  have hlen := loaded_txLen hc b op hfit
  refine ⟨?_, txFrom_appendChecksum_of_payload (b := { b.loaded op payload with ie := false, done := false }) hlen
    (loaded_txFrom b op payload)⟩
  exact (appendChecksum_txFrameLen_toNat (b := b.loaded op payload) hc (by omega)).trans (by omega)

/-- The host writes the payload, BUILDs the frame and sends it on its own transport. -/
theorem runs_sendByHost (hc : c.Legal) (he : c.enginePresent = false) (hb : b.busy = false) (op : Byte)
    {payload : Bytes} (hfit : payload.length + 3 ≤ c.txbufSize) :
    Runs (List.replicate (payload.length + 3 + 2 + (payload.length + 3)) .hostTurn)
      ⟨c, b, env, some ⟨kind, exchangeStart c irq op payload⟩, irq⟩
      ⟨c, b.built op payload, env.sent (encodeFrame op payload), some ⟨kind, .collect []⟩, irq⟩ := by
  have hwlen := exchangeWrites_length_noEngine he irq op payload
  have hbusy : (b.built op payload).busy = false := hb
  have hstart : exchangeStart c irq op payload = .issue (exchangeWrites c irq op payload) .checkBuild := by
    rw [exchangeStart, if_neg (by simp [he])]
  have hwrites := runs_writes (env := env) (kind := kind) (irq := irq) (next := .checkBuild)
    (List.ne_nil_of_length_eq_add_one hwlen) (exchangeWrites_noEngine_writesAll hc he hb irq op hfit)
  obtain ⟨hlen, hframe⟩ := built_frame (b := b) hc op hfit
  have hsend := runs_readFrame (env := env) (kind := kind) (irq := irq) hc hbusy (payload.length + 2)
    (Nat.zero_add _) hfit
  rw [hframe] at hsend
  rw [hwlen] at hwrites
  rw [List.replicate_add, List.replicate_add, hstart, List.append_assoc]
  exact hwrites.append ((runs_checkBuild hbusy rfl).cons ((runs_readFrameLen hbusy hlen).cons hsend))

/-- The response arrives, and the host loads it and issues PARSE. -/
theorem runs_receiveByHost (hc : c.Legal) (hb : b.busy = false) {response : Bytes} (hne : response ≠ [])
    (hfit : response.length ≤ c.rxbufSize) :
    Runs (deviceAnswers response ++ List.replicate (response.length + 2) .hostTurn)
      ⟨c, b, env, some ⟨kind, .collect []⟩, irq⟩
      ⟨c, b.judged c response, env, some ⟨kind, .readStatus⟩, irq⟩ := by
  have hload := runs_writes (env := env) (kind := kind) (irq := irq) (next := .readStatus)
    (List.ne_nil_of_length_eq_add_one (loadResponse_length response)) (loadResponse_writesAll hc hb hfit)
  rw [loadResponse_length] at hload
  rw [deviceAnswers, List.append_assoc]
  exact (runs_collect response).append ((runs_collected hne).cons hload)

theorem judged_parsed (hc : c.Legal) {response : Bytes} (hfit : response.length ≤ c.rxbufSize) :
    (b.judged c response).Parsed c response := by
  have hlen : lengthWord response.length = BitVec.ofNat 32 response.length := by
    obtain ⟨_, _, _, hmax, _⟩ := hc
    exact lengthWord_of_lt (by omega)
  exact parse_parsed (b := { b.fill rxBase response with rxLen := lengthWord response.length, ie := false, done := false })
    hc hfit hlen (rxFrom_fill b response)

theorem judged_busy (response : Bytes) : (b.judged c response).busy = b.busy := (Block.keepsExchange_parse _ _).1

/-- The parts of the run: the frame goes out, the response is loaded, and its body is read. -/
theorem exchangeEventsNoEngine_eq (payload response body : Bytes) :
    exchangeEventsNoEngine payload response body =
      List.replicate (payload.length + 3 + 2 + (payload.length + 3)) .hostTurn ++
        ((deviceAnswers response ++ List.replicate (response.length + 2) .hostTurn) ++
          List.replicate (body.length + 2) .hostTurn) := by
  rw [exchangeEventsNoEngine, Nat.add_assoc _ 2 body.length, Nat.add_comm 2, List.replicate_add (m := response.length + 2)]
  simp only [List.append_assoc]

/-- From the host's first access to the body. -/
theorem runsTo_exchangeEventsNoEngine (hc : c.Legal) (he : c.enginePresent = false) (hb : b.busy = false) (op : Byte)
    {payload body : Bytes} (reserved t0 t1 : Byte) (hpayload : payload.length + 3 ≤ c.txbufSize)
    (hbody : body.length + 10 ≤ c.rxbufSize) :
    RunsTo (exchangeEventsNoEngine payload (wrap 0x00 reserved body t0 t1) body)
      ⟨c, b, env, some ⟨kind, exchangeStart c irq op payload⟩, irq⟩ fun t =>
        ∃ u : State, t = exchangeOk kind body u ∧ u.env = env.sent (encodeFrame op payload) ∧ u.blk.err = .none := by
  have hrlen := wrap_length 0x00 reserved t0 t1 body
  have hresponse := hrlen.trans_le hbody
  have hbusy : (b.built op payload).busy = false := hb
  have hsent := runs_sendByHost (kind := kind) (irq := irq) (env := env) hc he hb op hpayload
  have hloaded := runs_receiveByHost (kind := kind) (irq := irq) (env := env.sent (encodeFrame op payload)) hc hbusy
    (List.ne_nil_of_length_eq_add_one hrlen) hresponse
  obtain ⟨herr, hread⟩ := runsTo_readOk (kind := kind) (irq := irq) (env := env.sent (encodeFrame op payload)) hc
    ((judged_busy _).trans hbusy) (judged_parsed hc hresponse) hbody
  rw [exchangeEventsNoEngine_eq]
  refine hsent.append (hloaded.append (hread.mono ?_))
  rintro t ⟨u, -, hblk, henv, rfl⟩
  exact ⟨u, rfl, henv, by rw [hblk]; exact herr⟩

end Whole

end Sys2Proof.Machine
end

section
/-!
The family `44_transfer_procedures.md`: whole exchanges of a host.
-/
namespace Sys2Proof.Proofs
open Sys2Proof.Machine Sys2Proof.Claims

/-- Settles O50: the request starts the exchange at once, and the host's accesses, the engine and the device do the rest. -/
theorem exchangeReturnsBody : Obligations.ExchangeReturnsBody := by
  intro s kind op reserved t0 t1 payload body ⟨hc, he, hb, hfree⟩ hpayload hbody
  refine answers_play_cons ⟨_, runEvent_request_of_free hfree _, rfl⟩ fun t ht => ?_
  obtain ⟨w, hw, u, hok, henv, hbusy, herr, hie⟩ :=
    runsTo_exchangeEvents (kind := kind) (irq := s.host.useIrq) (env := s.env) hc he hb op reserved t0 t1 hpayload hbody t
      (ht ▸ rfl)
  exact ⟨w, hw, u, hok, congrArg Environment.lineOut henv, hbusy, herr, hie⟩

/-- Settles O51: the host sends the frame that BUILD made, collects the response, and PARSE judges it. -/
theorem exchangeWithoutEngineReturnsBody : Obligations.ExchangeWithoutEngineReturnsBody := by
  intro s kind op reserved t0 t1 payload body hc he hb hfree hpayload hbody
  refine answers_play_cons ⟨_, runEvent_request_of_free hfree _, rfl⟩ fun t ht => ?_
  obtain ⟨w, hw, u, hok, henv, herr⟩ :=
    runsTo_exchangeEventsNoEngine (kind := kind) (irq := s.host.useIrq) (env := s.env) hc he hb op reserved t0 t1 hpayload
      hbody t (ht ▸ rfl)
  exact ⟨w, hw, u, hok, congrArg Environment.lineOut henv, herr⟩

/-- However ListDir is asked for, its exchange begins (O49). -/
theorem runEvent_listDir_begins {s : State} (hfree : s.host.free = true) {p : Bytes} {asked : Event}
    (hasked : (asked = .request (.listDir none) ∧ p = [0x2F, 0x66, 0x6C, 0x61, 0x73, 0x68]) ∨
      (∃ u, asked = .request (.listDir (some u)) ∧ normalizePath u = .ok p) ∨
      asked = .transaction (encode (.listDir p))) :
    Answers (runEvent asked s) fun t =>
      t.view = ⟨s.cfg, s.blk, s.env, some ⟨.listDir, exchangeStart s.cfg s.host.useIrq 0x03 p⟩, s.host.useIrq⟩ := by
  obtain ⟨rfl, rfl⟩ | ⟨u, rfl, hok⟩ | rfl := hasked
  · exact ⟨_, runEvent_request_of_free hfree _, rfl⟩
  · rw [runEvent_request_of_free hfree, startOp_listDir_of_ok hok]
    exact ⟨_, rfl, rfl⟩
  · refine ⟨_, (runPacket_decode (decode_encodeFrame 0x03 p) s).trans
      (congrArg Host.Outcome.next (request_send_of_free hfree .listDir 0x03 p)), rfl⟩

/-- Settles O52: the exchange ends with the body, and ListDir takes it apart at its commas. -/
theorem listDirListsEntries : Obligations.ListDirListsEntries := by
  intro s p body reserved t0 t1 ⟨hc, he, hb, hfree⟩ hp hbody asked hasked
  refine answers_play_cons (runEvent_listDir_begins hfree hasked) fun t ht => ?_
  obtain ⟨w, hw, u, rfl, henv, -⟩ := runsTo_exchangeEvents (kind := .listDir) hc he hb 0x03 reserved t0 t1 hp hbody t ht
  refine ⟨_, hw, rfl, ?_, congrArg Environment.lineOut henv⟩
  rw [← splitAt_eq_splitOn]
  rfl

end Sys2Proof.Proofs
end
